-- ==== Sys2Proof/Word.lean ====
section
/-! DEFINITION. The word types of the SCDE: bytes, the 32-bit words of the host port and of the counters, byte sequences
(spec 00_scope.md R11, R12). -/
namespace Sys2Proof

/-- An unsigned number 0..255 (R12). -/
abbrev Byte := BitVec 8

/-- The width of `ROUNDS`, `PLEN`, `CNT`, `I` and of the port's `idx` and `data` (R7, R93). -/
abbrev Word32 := BitVec 32

/-- A byte sequence, index 0 first (R12, 20_memory.md R62). -/
abbrev Bytes := List Byte

end Sys2Proof
end

