-- ==== Sys2Proof/Config.lean ====
section
/-! DEFINITION. What the spec leaves to an implementation and the free values of the model. None has a body: no proof can
see a value (log entries 1, 2 and 3). -/
namespace Sys2Proof.Config

/-- `PW_MAX` of the machine after reset: any natural number up to 2^30 (00_scope.md R7, 92_eei_decisions.md D6).
DESIGN CHOICE, log entry 1, safe: nothing is known of it but the bound. -/
opaque pwMax : Fin (2 ^ 30 + 1)

/-- `DSZ(alg)` less one for an `ALG` that is neither 5 nor 6: R7 gives none. The bound 64 is the size of the digest
buffers (10_state.md R20). DESIGN CHOICE, log entry 2, safe. -/
opaque openDigestSize : Byte → Fin 64

/-- `NGRP(alg)` less one for an `ALG` that is neither 5 nor 6: R7 gives none. The bound 22 keeps a full group inside `ENC`
(R20). DESIGN CHOICE, log entry 2, safe. -/
opaque openGroups : Byte → Fin 22

/-- Entry `pos` of the permutation table for an `ALG` that is neither 5 nor 6: 44_mcf_encoder.md R291 names two tables
only. DESIGN CHOICE, log entry 2, safe. -/
opaque openPerm : Byte → Nat → Fin 64

/-- Byte `k` of `H(alg, M)` where 41_sha2_functions.md states none: `alg` neither 5 nor 6 (R14), or `M` beyond the length
limit of R171. DESIGN CHOICE, log entries 2 and 3, safe. -/
opaque openDigest : Byte → Bytes → Nat → Byte

/-- `ELEN(alg)` for an `ALG` that is neither 5 nor 6: R7 and 44_mcf_encoder.md R287 give none. The bound 86 is the size of
`ENC` (10_state.md R31). DESIGN CHOICE, log entry 2, safe. -/
opaque openTextLength : Byte → Fin 87

end Sys2Proof.Config
end

