-- ==== Sys2Proof/Machine/Sha2.lean ====
section
/-! DEFINITION. The hash primitive: SHA-256 and SHA-512 as 41_sha2_functions.md writes them (R160 to R177), over one word
width `w` (R162). The spec marks the whole file as general knowledge, confirmed by its check values (log entry 23). -/
namespace Sys2Proof.Machine

/-- What the two functions differ in (R160, R161). -/
structure Sha2 (w : Nat) where
  /-- The initial chaining words (R165, R167). -/
  iv : List (BitVec w)
  /-- The round constants (R166, R168); their number is the number of rounds. -/
  k : List (BitVec w)
  /-- `Σ0` (R163, R164). -/
  bigSigma0 : BitVec w → BitVec w
  /-- `Σ1`. -/
  bigSigma1 : BitVec w → BitVec w
  /-- `σ0`. -/
  smallSigma0 : BitVec w → BitVec w
  /-- `σ1`. -/
  smallSigma1 : BitVec w → BitVec w
  /-- The block size in bytes. -/
  blockBytes : Nat
  /-- The width of the length field in bytes (R171). -/
  lengthBytes : Nat

/-- `ROTR^n(x)` (R162). -/
def rotr {w : Nat} (n : Nat) (x : BitVec w) : BitVec w :=
  x >>> n ||| x <<< (w - n)

/-- `SHR^n(x)` (R162). -/
def shr {w : Nat} (n : Nat) (x : BitVec w) : BitVec w :=
  x >>> n

/-- `Ch(x, y, z)` (R162). -/
def shaCh {w : Nat} (x y z : BitVec w) : BitVec w :=
  (x &&& y) ^^^ (~~~x &&& z)

/-- `Maj(x, y, z)` (R162). -/
def shaMaj {w : Nat} (x y z : BitVec w) : BitVec w :=
  (x &&& y) ^^^ (x &&& z) ^^^ (y &&& z)

/-- The eight words `(a, b, c, d, e, f, g, h)` of a compression, or `(H0, ..., H7)` (R173). -/
structure EightWords (w : Nat) where
  (a b c d e f g h : BitVec w)

/-- Eight words from a list, in order. -/
def EightWords.ofList {w : Nat} (l : List (BitVec w)) : EightWords w :=
  ⟨l.getD 0 0, l.getD 1 0, l.getD 2 0, l.getD 3 0, l.getD 4 0, l.getD 5 0, l.getD 6 0, l.getD 7 0⟩

/-- Eight words as a list, in order. -/
def EightWords.toList {w : Nat} (v : EightWords w) : List (BitVec w) :=
  [v.a, v.b, v.c, v.d, v.e, v.f, v.g, v.h]

/-- A number from bytes, the first byte most significant (R170). -/
def natOfBytesBE (l : Bytes) : Nat :=
  l.foldl (fun acc b => acc * 256 + b.toNat) 0

/-- The low `n` bytes of a number, the most significant first (R171, R175). -/
def bytesBE : Nat → Nat → Bytes
  | 0, _ => []
  | n + 1, v => BitVec.ofNat 8 (v / 256 ^ n) :: bytesBE n v

/-- The first `count` pieces of `n` elements each. -/
def pieces {α : Type} (n : Nat) : Nat → List α → List (List α)
  | 0, _ => []
  | count + 1, l => l.take n :: pieces n count (l.drop n)

/-- Padding (R171): 0x80, the fewest zero bytes that bring the length to `blockBytes - lengthBytes` modulo `blockBytes`, and
the length in bits. -/
def shaPad (blockBytes lengthBytes : Nat) (m : Bytes) : Bytes :=
  let zeros := (2 * blockBytes - lengthBytes - 1 - m.length % blockBytes) % blockBytes
  m ++ 0x80 :: (List.replicate zeros 0 ++ bytesBE lengthBytes (8 * m.length))

/-- The 16 words of a block (R170). -/
def blockWords (w : Nat) (block : Bytes) : List (BitVec w) :=
  (pieces (w / 8) 16 block).map fun l => BitVec.ofNat w (natOfBytesBE l)

/-- `n` further words of the message schedule, on words held newest first (R172): `W[t-2]`, `W[t-7]`, `W[t-15]`, `W[t-16]`
are the words at 1, 6, 14 and 15. -/
def extendSchedule {w : Nat} (p : Sha2 w) : Nat → List (BitVec w) → List (BitVec w)
  | 0, l => l
  | n + 1, l =>
    extendSchedule p n
      ((p.smallSigma1 (l.getD 1 0) + l.getD 6 0 + p.smallSigma0 (l.getD 14 0) + l.getD 15 0) :: l)

/-- The message schedule of a block, `W[0]` first (R172). -/
def schedule {w : Nat} (p : Sha2 w) (block : Bytes) : List (BitVec w) :=
  (extendSchedule p (p.k.length - 16) (blockWords w block).reverse).reverse

/-- One round of the compression with `K[t]` and `W[t]` (R173). -/
def shaRound {w : Nat} (p : Sha2 w) (v : EightWords w) (kw : BitVec w × BitVec w) : EightWords w :=
  let t1 := v.h + p.bigSigma1 v.e + shaCh v.e v.f v.g + kw.1 + kw.2
  let t2 := p.bigSigma0 v.a + shaMaj v.a v.b v.c
  ⟨t1 + t2, v.a, v.b, v.c, v.d + t1, v.e, v.f, v.g⟩

/-- The compression of one block: rounds, then the chaining update (R173, R174). -/
def compress {w : Nat} (p : Sha2 w) (h : EightWords w) (block : Bytes) : EightWords w :=
  let v := (p.k.zip (schedule p block)).foldl (shaRound p) h
  ⟨h.a + v.a, h.b + v.b, h.c + v.c, h.d + v.d, h.e + v.e, h.f + v.f, h.g + v.g, h.h + v.h⟩

/-- The hash function: pad, compress the blocks in order from the initial words, serialise (R160, R161, R175). -/
def sha2 {w : Nat} (p : Sha2 w) (m : Bytes) : Bytes :=
  let padded := shaPad p.blockBytes p.lengthBytes m
  let blocks := pieces p.blockBytes (padded.length / p.blockBytes) padded
  ((blocks.foldl (compress p) (EightWords.ofList p.iv)).toList).flatMap fun x => bytesBE (w / 8) x.toNat

/-- The words of a table printed row by row with `n` words in a row (R165 to R168): each row is given as the one number that
its hexadecimal digits spell, its first word leading. -/
def rowWords (w n : Nat) (rows : List Nat) : List (BitVec w) :=
  rows.flatMap fun row => (List.range n).map fun k => BitVec.ofNat w (row >>> (w * (n - 1 - k)))

/-- SHA-256 (R160, R163, R165, R166). -/
def sha256 : Sha2 32 where
  iv := rowWords 32 8 [
    0x6a09e667bb67ae853c6ef372a54ff53a510e527f9b05688c1f83d9ab5be0cd19]
  k := rowWords 32 8 [
    0x428a2f9871374491b5c0fbcfe9b5dba53956c25b59f111f1923f82a4ab1c5ed5,
    0xd807aa9812835b01243185be550c7dc372be5d7480deb1fe9bdc06a7c19bf174,
    0xe49b69c1efbe47860fc19dc6240ca1cc2de92c6f4a7484aa5cb0a9dc76f988da,
    0x983e5152a831c66db00327c8bf597fc7c6e00bf3d5a7914706ca635114292967,
    0x27b70a852e1b21384d2c6dfc53380d13650a7354766a0abb81c2c92e92722c85,
    0xa2bfe8a1a81a664bc24b8b70c76c51a3d192e819d6990624f40e3585106aa070,
    0x19a4c1161e376c082748774c34b0bcb5391c0cb34ed8aa4a5b9cca4f682e6ff3,
    0x748f82ee78a5636f84c878148cc7020890befffaa4506cebbef9a3f7c67178f2]
  bigSigma0 x := rotr 2 x ^^^ rotr 13 x ^^^ rotr 22 x
  bigSigma1 x := rotr 6 x ^^^ rotr 11 x ^^^ rotr 25 x
  smallSigma0 x := rotr 7 x ^^^ rotr 18 x ^^^ shr 3 x
  smallSigma1 x := rotr 17 x ^^^ rotr 19 x ^^^ shr 10 x
  blockBytes := 64
  lengthBytes := 8

/-- SHA-512 (R161, R164, R167, R168). -/
def sha512 : Sha2 64 where
  iv := rowWords 64 4 [
    0x6a09e667f3bcc908bb67ae8584caa73b3c6ef372fe94f82ba54ff53a5f1d36f1,
    0x510e527fade682d19b05688c2b3e6c1f1f83d9abfb41bd6b5be0cd19137e2179]
  k := rowWords 64 4 [
    0x428a2f98d728ae227137449123ef65cdb5c0fbcfec4d3b2fe9b5dba58189dbbc,
    0x3956c25bf348b53859f111f1b605d019923f82a4af194f9bab1c5ed5da6d8118,
    0xd807aa98a303024212835b0145706fbe243185be4ee4b28c550c7dc3d5ffb4e2,
    0x72be5d74f27b896f80deb1fe3b1696b19bdc06a725c71235c19bf174cf692694,
    0xe49b69c19ef14ad2efbe4786384f25e30fc19dc68b8cd5b5240ca1cc77ac9c65,
    0x2de92c6f592b02754a7484aa6ea6e4835cb0a9dcbd41fbd476f988da831153b5,
    0x983e5152ee66dfaba831c66d2db43210b00327c898fb213fbf597fc7beef0ee4,
    0xc6e00bf33da88fc2d5a79147930aa72506ca6351e003826f142929670a0e6e70,
    0x27b70a8546d22ffc2e1b21385c26c9264d2c6dfc5ac42aed53380d139d95b3df,
    0x650a73548baf63de766a0abb3c77b2a881c2c92e47edaee692722c851482353b,
    0xa2bfe8a14cf10364a81a664bbc423001c24b8b70d0f89791c76c51a30654be30,
    0xd192e819d6ef5218d69906245565a910f40e35855771202a106aa07032bbd1b8,
    0x19a4c116b8d2d0c81e376c085141ab532748774cdf8eeb9934b0bcb5e19b48a8,
    0x391c0cb3c5c95a634ed8aa4ae3418acb5b9cca4f7763e373682e6ff3d6b2b8a3,
    0x748f82ee5defb2fc78a5636f43172f6084c87814a1f0ab728cc702081a6439ec,
    0x90befffa23631e28a4506cebde82bde9bef9a3f7b2c67915c67178f2e372532b,
    0xca273eceea26619cd186b8c721c0c207eada7dd6cde0eb1ef57d4f7fee6ed178,
    0x06f067aa72176fba0a637dc5a2c898a6113f9804bef90dae1b710b35131c471b,
    0x28db77f523047d8432caab7b40c724933c9ebe0a15c9bebc431d67c49c100d4c,
    0x4cc5d4becb3e42b6597f299cfc657e2a5fcb6fab3ad6faec6c44198c4a475817]
  bigSigma0 x := rotr 28 x ^^^ rotr 34 x ^^^ rotr 39 x
  bigSigma1 x := rotr 14 x ^^^ rotr 18 x ^^^ rotr 41 x
  smallSigma0 x := rotr 1 x ^^^ rotr 8 x ^^^ shr 7 x
  smallSigma1 x := rotr 19 x ^^^ rotr 61 x ^^^ shr 6 x
  blockBytes := 128
  lengthBytes := 16

/-- `DSZ(alg)`: 32 for SHA256, 64 for SHA512 (00_scope.md R7); a free value from 1 to 64 for an unsupported `ALG` (log
entry 2). -/
def digestSize (alg : Byte) : Nat :=
  if alg = 5 then 32 else if alg = 6 then 64 else (Config.openDigestSize alg).val + 1

/-- `H(alg, M)`, a sequence of `DSZ(alg)` bytes (R14, R160, R161; 40_hash_port.md R131), with the length limits of R171.
Where the spec states no digest the bytes are free values (log entries 2 and 3). -/
def hashBytes (alg : Byte) (m : Bytes) : Bytes :=
  if alg = 5 ∧ 8 * m.length < 2 ^ 64 then sha2 sha256 m
  else if alg = 6 ∧ 8 * m.length < 2 ^ 128 then sha2 sha512 m
  else (List.range (digestSize alg)).map (Config.openDigest alg m)

end Sys2Proof.Machine
end

