-- ==== Sys2Proof/Machine/Codes.lean ====
section
/-! DEFINITION. The code maps of 30_encoding.md as enumerations: phases (R103, R104), host objects (R94), datapath buffers
(R100), and the formats an instruction word can have (R90). -/
namespace Sys2Proof

/-- The 30 phases of R104, the values of `PH`. The codes 0x1E to 0x3F are unrepresentable (10_state.md R39; DEDUCED, log
entry 17, safe). -/
inductive Phase where
  | idle | chk | b0 | b1 | b2 | b3 | b4 | a0 | a1 | a2
  | a3 | a4 | a5 | dp0 | dp1 | dp2 | p0 | ds0 | ds1 | ds2
  | s0 | rt | r1 | r2 | r3 | r4 | r5 | e0 | done | err
  deriving DecidableEq, Repr

/-- The host objects of R94. The five reserved object numbers keep their number, so that an access to one is an access
like any other (reads 0, writes ignored). -/
inductive Obj where
  | ctrl | status | err | alg | rounds | slen | plen | reserved7
  | salt | pw | digest | enc | reservedC | reservedD | reservedE | reservedF
  deriving DecidableEq, Repr

/-- The buffers of the datapath buffer space (20_memory.md R60): the seven that carry a buffer code (R100), and `ENC`. -/
inductive Buf where
  | pw | salt | b | p | s | c | t | enc
  deriving DecidableEq, Repr

/-- The formats in which an instruction of the table is written (R90): `U` and `UE` micro-operation bytes, `CMD` command
bytes, `HA` port accesses, `PHASE` codes, `RT` round types. (`G24` and `JOB` of R90 encode data, not instructions.) -/
inductive Format where
  | u | ue | cmd | ha | phase | rt
  deriving DecidableEq, Repr

/-- The width of each format in bits (R90); `HA` has 1 + 4 + 32 + 32 (R93). -/
def Format.width : Format → Nat
  | .u | .ue | .cmd => 8
  | .ha => 69
  | .phase => 6
  | .rt => 3

/-- The 6-bit code of a phase (R104). -/
def Phase.code : Phase → BitVec 6
  | .idle => 0x00
  | .chk => 0x01
  | .b0 => 0x02
  | .b1 => 0x03
  | .b2 => 0x04
  | .b3 => 0x05
  | .b4 => 0x06
  | .a0 => 0x07
  | .a1 => 0x08
  | .a2 => 0x09
  | .a3 => 0x0A
  | .a4 => 0x0B
  | .a5 => 0x0C
  | .dp0 => 0x0D
  | .dp1 => 0x0E
  | .dp2 => 0x0F
  | .p0 => 0x10
  | .ds0 => 0x11
  | .ds1 => 0x12
  | .ds2 => 0x13
  | .s0 => 0x14
  | .rt => 0x15
  | .r1 => 0x16
  | .r2 => 0x17
  | .r3 => 0x18
  | .r4 => 0x19
  | .r5 => 0x1A
  | .e0 => 0x1B
  | .done => 0x1C
  | .err => 0x1D

/-- The phase with a given code; none for 0x1E to 0x3F (R103). -/
def Phase.ofCode (code : BitVec 6) : Option Phase :=
  match code.toNat with
  | 0x00 => some .idle
  | 0x01 => some .chk
  | 0x02 => some .b0
  | 0x03 => some .b1
  | 0x04 => some .b2
  | 0x05 => some .b3
  | 0x06 => some .b4
  | 0x07 => some .a0
  | 0x08 => some .a1
  | 0x09 => some .a2
  | 0x0A => some .a3
  | 0x0B => some .a4
  | 0x0C => some .a5
  | 0x0D => some .dp0
  | 0x0E => some .dp1
  | 0x0F => some .dp2
  | 0x10 => some .p0
  | 0x11 => some .ds0
  | 0x12 => some .ds1
  | 0x13 => some .ds2
  | 0x14 => some .s0
  | 0x15 => some .rt
  | 0x16 => some .r1
  | 0x17 => some .r2
  | 0x18 => some .r3
  | 0x19 => some .r4
  | 0x1A => some .r5
  | 0x1B => some .e0
  | 0x1C => some .done
  | 0x1D => some .err
  | _ => none

/-- The object number of R94. -/
def Obj.code : Obj → BitVec 4
  | .ctrl => 0x0
  | .status => 0x1
  | .err => 0x2
  | .alg => 0x3
  | .rounds => 0x4
  | .slen => 0x5
  | .plen => 0x6
  | .reserved7 => 0x7
  | .salt => 0x8
  | .pw => 0x9
  | .digest => 0xA
  | .enc => 0xB
  | .reservedC => 0xC
  | .reservedD => 0xD
  | .reservedE => 0xE
  | .reservedF => 0xF

/-- The object with a given number (R94); every 4-bit number names one. -/
def Obj.ofCode (code : BitVec 4) : Obj :=
  match code.toNat with
  | 0x0 => .ctrl
  | 0x1 => .status
  | 0x2 => .err
  | 0x3 => .alg
  | 0x4 => .rounds
  | 0x5 => .slen
  | 0x6 => .plen
  | 0x7 => .reserved7
  | 0x8 => .salt
  | 0x9 => .pw
  | 0xA => .digest
  | 0xB => .enc
  | 0xC => .reservedC
  | 0xD => .reservedD
  | 0xE => .reservedE
  | _ => .reservedF

/-- The 3-bit buffer code, field `sel` (R100); `ENC` has none. -/
def Buf.sel : Buf → Option (BitVec 3)
  | .pw => some 0
  | .salt => some 1
  | .b => some 2
  | .p => some 3
  | .s => some 4
  | .c => some 5
  | .t => some 6
  | .enc => none

end Sys2Proof
end

