-- ==== Sys2Proof/Syntax.lean ====
section
/-! DEFINITION. The instructions of the SCDE: one constructor per row of spec/opcode_table.json, in the table's order. -/
namespace Sys2Proof

/-- One instruction: a micro-operation of the sequencer (30_encoding.md R101), a host-port access or command (R93, R95), a
round type (R107) or a phase of the microprogram (R104). -/
inductive Instr where
  /-- `NOP`, byte 0x00 (R226). -/
  | nop
  /-- `CHK`, byte 0x01 (R227). -/
  | chk
  /-- `HNEW`, byte 0x10 (R132). -/
  | hnew
  /-- `HUPD.PW`, byte 0x20 (R133). -/
  | hupdPw
  /-- `HUPD.SALT`, byte 0x21 (R134). -/
  | hupdSalt
  /-- `HUPD.B`, byte 0x22 (R135). -/
  | hupdB
  /-- `HUPD.P`, byte 0x23 (R136). -/
  | hupdP
  /-- `HUPD.S`, byte 0x24 (R137). -/
  | hupdS
  /-- `HUPD.C`, byte 0x25 (R138). -/
  | hupdC
  /-- `HUPDN`, byte 0x2A (R139). -/
  | hupdn
  /-- `HFIN.B`, byte 0x32 (R140). -/
  | hfinB
  /-- `HFIN.C`, byte 0x35 (R141). -/
  | hfinC
  /-- `HFIN.T`, byte 0x36 (R142). -/
  | hfinT
  /-- `FILL.P`, byte 0x43 (R198). -/
  | fillP
  /-- `FILL.S`, byte 0x44 (R199). -/
  | fillS
  /-- `ENCG.4`, byte 0x54 (R291). -/
  | encg4
  /-- `ENCG.3`, byte 0x53 (R292). -/
  | encg3
  /-- `ENCG.2`, byte 0x52 (R293). -/
  | encg2
  /-- `RD obj[idx]`, `HostRead` (R321). The `data` field of `HA` carries the reply and is no operand (R93). -/
  | rd (obj : Obj) (idx : Word32)
  /-- `WR obj[idx], data`, `HostWrite` (R322). -/
  | wr (obj : Obj) (idx data : Word32)
  /-- `START`, command 0x01 (R331). -/
  | start
  /-- `CLEAR`, command 0x02 (R332). -/
  | clear
  /-- `CMD.reserved`, any other command byte (R333). -/
  | cmdReserved (code : Byte)
  /-- `RND.CP`, `RTYPE` = 0 (R241). -/
  | rndCp
  /-- `RND.CPP`, `RTYPE` = 1 (R242). -/
  | rndCpp
  /-- `RND.CSP`, `RTYPE` = 2 (R243). -/
  | rndCsp
  /-- `RND.CSPP`, `RTYPE` = 3 (R244). -/
  | rndCspp
  /-- `RND.PC`, `RTYPE` = 4 (R245). -/
  | rndPc
  /-- `RND.PPC`, `RTYPE` = 5 (R246). -/
  | rndPpc
  /-- `RND.PSC`, `RTYPE` = 6 (R247). -/
  | rndPsc
  /-- `RND.PSPC`, `RTYPE` = 7 (R248). -/
  | rndPspc
  /-- Phase `IDLE`, code 0x00 (R104). -/
  | phIdle
  /-- Phase `CHK`, code 0x01 (R104). -/
  | phChk
  /-- Phase `B0`, code 0x02 (R104). -/
  | phB0
  /-- Phase `B1`, code 0x03 (R104). -/
  | phB1
  /-- Phase `B2`, code 0x04 (R104). -/
  | phB2
  /-- Phase `B3`, code 0x05 (R104). -/
  | phB3
  /-- Phase `B4`, code 0x06 (R104). -/
  | phB4
  /-- Phase `A0`, code 0x07 (R104). -/
  | phA0
  /-- Phase `A1`, code 0x08 (R104). -/
  | phA1
  /-- Phase `A2`, code 0x09 (R104). -/
  | phA2
  /-- Phase `A3`, code 0x0A (R104). -/
  | phA3
  /-- Phase `A4`, code 0x0B (R104). -/
  | phA4
  /-- Phase `A5`, code 0x0C (R104). -/
  | phA5
  /-- Phase `DP0`, code 0x0D (R104). -/
  | phDp0
  /-- Phase `DP1`, code 0x0E (R104). -/
  | phDp1
  /-- Phase `DP2`, code 0x0F (R104). -/
  | phDp2
  /-- Phase `P0`, code 0x10 (R104). -/
  | phP0
  /-- Phase `DS0`, code 0x11 (R104). -/
  | phDs0
  /-- Phase `DS1`, code 0x12 (R104). -/
  | phDs1
  /-- Phase `DS2`, code 0x13 (R104). -/
  | phDs2
  /-- Phase `S0`, code 0x14 (R104). -/
  | phS0
  /-- Phase `RT`, code 0x15 (R104). -/
  | phRt
  /-- Phase `R1`, code 0x16 (R104). -/
  | phR1
  /-- Phase `R2`, code 0x17 (R104). -/
  | phR2
  /-- Phase `R3`, code 0x18 (R104). -/
  | phR3
  /-- Phase `R4`, code 0x19 (R104). -/
  | phR4
  /-- Phase `R5`, code 0x1A (R104). -/
  | phR5
  /-- Phase `E0`, code 0x1B (R104). -/
  | phE0
  /-- Phase `DONE`, code 0x1C (R104). -/
  | phDone
  /-- Phase `ERR`, code 0x1D (R104). -/
  | phErr
  deriving DecidableEq, Repr

end Sys2Proof
end

