-- ==== Sys2Proof/WellFormed.lean ====
section
/-! DEFINITION. Which instruction terms stand for an encoding of the spec. -/
namespace Sys2Proof

/-- A term is well formed when its operands are ones its row of the table has: a reserved command's code is neither 0x01
(`START`) nor 0x02 (`CLEAR`) (30_encoding.md R95). Every other operand may take every value of its field (R94: reserved
object numbers read 0 and ignore writes; R321: `idx` is ignored for scalar objects). -/
def Instr.wf : Instr → Bool
  | .cmdReserved code => code != 0x01 && code != 0x02
  | .nop | .chk | .hnew | .hupdPw | .hupdSalt | .hupdB | .hupdP | .hupdS | .hupdC | .hupdn | .hfinB | .hfinC
  | .hfinT | .fillP | .fillS | .encg4 | .encg3 | .encg2 | .rd _ _ | .wr _ _ _ | .start | .clear | .rndCp
  | .rndCpp | .rndCsp | .rndCspp | .rndPc | .rndPpc | .rndPsc | .rndPspc | .phIdle | .phChk | .phB0 | .phB1
  | .phB2 | .phB3 | .phB4 | .phA0 | .phA1 | .phA2 | .phA3 | .phA4 | .phA5 | .phDp0 | .phDp1 | .phDp2 | .phP0
  | .phDs0 | .phDs1 | .phDs2 | .phS0 | .phRt | .phR1 | .phR2 | .phR3 | .phR4 | .phR5 | .phE0 | .phDone
  | .phErr => true

end Sys2Proof
end

