-- ==== Sys2Proof/Decode.lean ====
section
/-! DEFINITION. The decoder, total on every word of every format, and after it the encoder, both from the encoding tables
of 30_encoding.md. -/
namespace Sys2Proof

/-- Why a word is no instruction. -/
inductive Illegal where
  /-- A word with bits above its format's width (R90: all formats are of fixed length). -/
  | tooWide (f : Format)
  /-- A micro-operation byte that R101 does not list (R102). -/
  | reservedMicroOp (byte : Byte)
  /-- A phase code 0x1E to 0x3F (R103, 10_state.md R39). -/
  | unusedPhase (code : BitVec 6)
  deriving DecidableEq, Repr

/-- What the decoder answers. -/
inductive Decoded where
  | instr (i : Instr)
  | illegal (why : Illegal)
  deriving DecidableEq, Repr

/-- The decoded instruction, if there is one. -/
def Decoded.instr? : Decoded → Option Instr
  | .instr i => some i
  | .illegal _ => none

/-- Bits `lo + len - 1` down to `lo` of a word (00_scope.md R11). -/
def bitField (w lo len : Nat) : BitVec len :=
  BitVec.ofNat len (w >>> lo)

/-- A byte of format `U`: `class` = u[7:4], `part` = u[3], `sel` = u[2:0]; class 0 has a sub-code u[3:0] (R99, R101). -/
def decodeU (u : Byte) : Option Instr :=
  match (bitField u.toNat 4 4).toNat, (bitField u.toNat 3 1).toNat, (bitField u.toNat 0 3).toNat with
  | 0x0, 0, 0 => some .nop
  | 0x0, 0, 1 => some .chk
  | 0x1, 0, 0 => some .hnew
  | 0x2, 0, 0 => some .hupdPw
  | 0x2, 0, 1 => some .hupdSalt
  | 0x2, 0, 2 => some .hupdB
  | 0x2, 0, 3 => some .hupdP
  | 0x2, 0, 4 => some .hupdS
  | 0x2, 0, 5 => some .hupdC
  | 0x2, 1, 2 => some .hupdn
  | 0x3, 0, 2 => some .hfinB
  | 0x3, 0, 5 => some .hfinC
  | 0x3, 0, 6 => some .hfinT
  | 0x4, 0, 3 => some .fillP
  | 0x4, 0, 4 => some .fillS
  | _, _, _ => none

/-- A byte of format `UE`: u[7:4] = 0x5, `n` = u[3:0] characters (R99, R101). -/
def decodeUE (u : Byte) : Option Instr :=
  match (bitField u.toNat 4 4).toNat, (bitField u.toNat 0 4).toNat with
  | 0x5, 4 => some .encg4
  | 0x5, 3 => some .encg3
  | 0x5, 2 => some .encg2
  | _, _ => none

/-- A command byte (R95). -/
def decodeCmd (code : Byte) : Instr :=
  if code = 0x01 then .start else if code = 0x02 then .clear else .cmdReserved code

/-- A port access (R93): `dir` in bit 0, `obj` in bits 4..1, `idx` in bits 36..5, `data` in bits 68..37. The order of the
fields in the word is the model's, `HOST_MAP` being open (20_memory.md R70; DESIGN CHOICE, log entry 10, safe). The `data`
field of a read is the reply, not an operand (log entry 21). -/
def decodeHA (w : Nat) : Instr :=
  let obj := Obj.ofCode (bitField w 1 4)
  if bitField w 0 1 = 0 then .rd obj (bitField w 5 32) else .wr obj (bitField w 5 32) (bitField w 37 32)

/-- A round type (R106, R107). -/
def decodeRT (code : BitVec 3) : Instr :=
  match code.toNat with
  | 0 => .rndCp
  | 1 => .rndCpp
  | 2 => .rndCsp
  | 3 => .rndCspp
  | 4 => .rndPc
  | 5 => .rndPpc
  | 6 => .rndPsc
  | _ => .rndPspc

/-- The instruction that performs a phase (R104). -/
def phaseInstr : Phase → Instr
  | .idle => .phIdle
  | .chk => .phChk
  | .b0 => .phB0
  | .b1 => .phB1
  | .b2 => .phB2
  | .b3 => .phB3
  | .b4 => .phB4
  | .a0 => .phA0
  | .a1 => .phA1
  | .a2 => .phA2
  | .a3 => .phA3
  | .a4 => .phA4
  | .a5 => .phA5
  | .dp0 => .phDp0
  | .dp1 => .phDp1
  | .dp2 => .phDp2
  | .p0 => .phP0
  | .ds0 => .phDs0
  | .ds1 => .phDs1
  | .ds2 => .phDs2
  | .s0 => .phS0
  | .rt => .phRt
  | .r1 => .phR1
  | .r2 => .phR2
  | .r3 => .phR3
  | .r4 => .phR4
  | .r5 => .phR5
  | .e0 => .phE0
  | .done => .phDone
  | .err => .phErr

/-- The decoder: a word of a format is an instruction or is refused by name. No mode bit changes decoding (R90). -/
def decode (f : Format) (w : Nat) : Decoded :=
  if 2 ^ f.width ≤ w then .illegal (.tooWide f)
  else
    match f with
    | .u => match decodeU (BitVec.ofNat 8 w) with
      | some i => .instr i
      | none => .illegal (.reservedMicroOp (BitVec.ofNat 8 w))
    | .ue => match decodeUE (BitVec.ofNat 8 w) with
      | some i => .instr i
      | none => .illegal (.reservedMicroOp (BitVec.ofNat 8 w))
    | .cmd => .instr (decodeCmd (BitVec.ofNat 8 w))
    | .ha => .instr (decodeHA w)
    | .phase => match Phase.ofCode (BitVec.ofNat 6 w) with
      | some p => .instr (phaseInstr p)
      | none => .illegal (.unusedPhase (BitVec.ofNat 6 w))
    | .rt => .instr (decodeRT (BitVec.ofNat 3 w))

/-- The format an instruction is written in (R90, R101). -/
def Instr.format : Instr → Format
  | .nop | .chk | .hnew | .hupdPw | .hupdSalt | .hupdB | .hupdP | .hupdS | .hupdC | .hupdn | .hfinB | .hfinC
  | .hfinT | .fillP | .fillS => .u
  | .encg4 | .encg3 | .encg2 => .ue
  | .rd _ _ | .wr _ _ _ => .ha
  | .start | .clear | .cmdReserved _ => .cmd
  | .rndCp | .rndCpp | .rndCsp | .rndCspp | .rndPc | .rndPpc | .rndPsc | .rndPspc => .rt
  | .phIdle | .phChk | .phB0 | .phB1 | .phB2 | .phB3 | .phB4 | .phA0 | .phA1 | .phA2 | .phA3 | .phA4 | .phA5
  | .phDp0 | .phDp1 | .phDp2 | .phP0 | .phDs0 | .phDs1 | .phDs2 | .phS0 | .phRt | .phR1 | .phR2 | .phR3
  | .phR4 | .phR5 | .phE0 | .phDone | .phErr => .phase

/-- The word of an instruction in its format: the bytes of R101, the command codes of R95, the fields of R93 (laid out as
`decodeHA` says, a read's reply field 0), the round types of R107, the phase codes of R104. -/
def Instr.word : Instr → Nat
  | .nop => 0x00
  | .chk => 0x01
  | .hnew => 0x10
  | .hupdPw => 0x20
  | .hupdSalt => 0x21
  | .hupdB => 0x22
  | .hupdP => 0x23
  | .hupdS => 0x24
  | .hupdC => 0x25
  | .hupdn => 0x2A
  | .hfinB => 0x32
  | .hfinC => 0x35
  | .hfinT => 0x36
  | .fillP => 0x43
  | .fillS => 0x44
  | .encg4 => 0x54
  | .encg3 => 0x53
  | .encg2 => 0x52
  | .rd obj idx => obj.code.toNat <<< 1 ||| idx.toNat <<< 5
  | .wr obj idx data => 1 ||| obj.code.toNat <<< 1 ||| idx.toNat <<< 5 ||| data.toNat <<< 37
  | .start => 0x01
  | .clear => 0x02
  | .cmdReserved code => code.toNat
  | .rndCp => 0b000
  | .rndCpp => 0b001
  | .rndCsp => 0b010
  | .rndCspp => 0b011
  | .rndPc => 0b100
  | .rndPpc => 0b101
  | .rndPsc => 0b110
  | .rndPspc => 0b111
  | .phIdle => (Phase.code .idle).toNat
  | .phChk => (Phase.code .chk).toNat
  | .phB0 => (Phase.code .b0).toNat
  | .phB1 => (Phase.code .b1).toNat
  | .phB2 => (Phase.code .b2).toNat
  | .phB3 => (Phase.code .b3).toNat
  | .phB4 => (Phase.code .b4).toNat
  | .phA0 => (Phase.code .a0).toNat
  | .phA1 => (Phase.code .a1).toNat
  | .phA2 => (Phase.code .a2).toNat
  | .phA3 => (Phase.code .a3).toNat
  | .phA4 => (Phase.code .a4).toNat
  | .phA5 => (Phase.code .a5).toNat
  | .phDp0 => (Phase.code .dp0).toNat
  | .phDp1 => (Phase.code .dp1).toNat
  | .phDp2 => (Phase.code .dp2).toNat
  | .phP0 => (Phase.code .p0).toNat
  | .phDs0 => (Phase.code .ds0).toNat
  | .phDs1 => (Phase.code .ds1).toNat
  | .phDs2 => (Phase.code .ds2).toNat
  | .phS0 => (Phase.code .s0).toNat
  | .phRt => (Phase.code .rt).toNat
  | .phR1 => (Phase.code .r1).toNat
  | .phR2 => (Phase.code .r2).toNat
  | .phR3 => (Phase.code .r3).toNat
  | .phR4 => (Phase.code .r4).toNat
  | .phR5 => (Phase.code .r5).toNat
  | .phE0 => (Phase.code .e0).toNat
  | .phDone => (Phase.code .done).toNat
  | .phErr => (Phase.code .err).toNat

/-- The encoder: format and word of an instruction. -/
def encode (i : Instr) : Format × Nat :=
  (i.format, i.word)

/-- The format in which a word of the opcode table is read. The table's rows of `U`, `UE`, `CMD`, `RT` and `PHASE` share
their numbers and nothing in the word tells them apart, so one order is fixed: a micro-operation byte of R101, else the
command 0x02, else a round type, else a phase code; wider words are port accesses. DESIGN CHOICE, log entry 9, safe: the
machine's own fetch never uses it (the sequencer reads `PHASE` codes, the port `HA` words). -/
def tableFormat (nbits w : Nat) : Format :=
  if 8 < nbits then .ha
  else if nbits = 6 then .phase
  else if nbits = 3 then .rt
  else if (decode .u w).instr?.isSome then .u
  else if (decode .ue w).instr?.isSome then .ue
  else if w = 2 then .cmd
  else if w < 8 then .rt
  else if w < 0x1E then .phase
  else .u

/-- The instruction the decoder reads from a word of the opcode table. -/
def decodeTableWord (nbits w : Nat) : Option Instr :=
  (decode (tableFormat nbits w) w).instr?

end Sys2Proof
end

