-- ==== Sys2Proof/Machine/State.lean ====
section
/-! DEFINITION. The state of one SCDE (10_state.md R20) as plain data, its value after reset (R48), and the reasons a step
can stop. -/
namespace Sys2Proof.Machine

/-- A byte buffer of the datapath buffer space (20_memory.md R60, R61): the pairs (offset, byte) whose byte is not 0, by
rising offset. An offset that is not listed reads 0, the value reset and CHK give every byte (10_state.md R48, R49; DEDUCED,
log entry 15, safe). -/
abbrev Memory := List Host.Cell

/-- The hash context `HCTX` = (`open`, `msg`) (10_state.md R45; kept as the whole message, DEDUCED, log entry 18, safe). -/
structure HashContext where
  /-- `HCTX.open`. -/
  isOpen : Bool
  /-- `HCTX.msg`: the bytes fed since the last `HNEW`. -/
  msg : Bytes
  deriving DecidableEq, Repr

/-- What the outside world lets happen next. The list of turns in `State.agenda` is the model's way to say any interleaving
of sequencer steps, host accesses and resets (70_reset_and_hazards.md R448; DESIGN CHOICE, log entry 5, safe). -/
inductive Turn where
  /-- The sequencer takes its next step (00_scope.md R9). -/
  | seq
  /-- An encoded instruction is presented: a host-port access, and nothing else, in a run of the hardware
  (45_host_commands.md R320). The other formats stand for an instruction of the table issued by itself (log entry 8). -/
  | word (f : Format) (w : Nat)
  /-- The host polls (`WAIT`, 30_encoding.md R116): while `STATUS` is BUSY the sequencer goes on and the turn stays; then
  the host's last read of `STATUS` takes place (log entry 6). -/
  | poll
  /-- The reset event (70_reset_and_hazards.md R430). -/
  | reset
  deriving DecidableEq, Repr

structure State where
  /-- `ALG`: 5 selects SHA256, 6 selects SHA512 (10_state.md R21). -/
  alg : Byte
  /-- `ROUNDS` (R22). -/
  rounds : Word32
  /-- `SLEN`, the salt length in bytes (R23). -/
  slen : Byte
  /-- `PLEN`, the password length in bytes (R25). -/
  plen : Word32
  /-- `SALT`, 16 bytes (R24). -/
  salt : Memory
  /-- `PW`, `PW_MAX` bytes (R26). -/
  pw : Memory
  /-- `PH`, the phase register, the program counter of the SCDE (R37). -/
  ph : Phase
  /-- `ERR` (R29). -/
  err : Byte
  /-- `HCTX` (R45). -/
  hctx : HashContext
  /-- `B`, 64 bytes (R33). -/
  bufB : Memory
  /-- `C`, 64 bytes (R34). -/
  bufC : Memory
  /-- `T`, 64 bytes (R35). -/
  bufT : Memory
  /-- `P`, `PW_MAX` bytes (R36). -/
  bufP : Memory
  /-- `S`, 16 bytes (R36). -/
  bufS : Memory
  /-- `CNT`, the loop counter of the set-up phases (R40). -/
  cnt : Word32
  /-- `I`, the round counter (R41). -/
  i : Word32
  /-- `G`, the encoder group counter (R42). -/
  g : BitVec 5
  /-- `ENC`, 86 bytes of text (R31). -/
  enc : Memory
  /-- The parameter `PW_MAX` of this machine (00_scope.md R7); no operation writes it. The model's own field (DESIGN CHOICE,
  log entry 1, safe). -/
  pwMax : Nat
  /-- The outside world's next turns; empty: the sequencer moves. The model's own field (DESIGN CHOICE, log entry 5, safe). -/
  agenda : List Turn
  /-- The values that host reads returned, oldest first. The model's own field (DESIGN CHOICE, log entry 16, safe). -/
  replies : List Word32
  deriving DecidableEq, Repr

/-- Reasons a step can fault. No step of a run from reset through the host port raises one. -/
inductive Fault where
  /-- Raised by a micro-operation whose byte range leaves its buffer: `MemRead` requires `off + n ≤ size(X)` (00_scope.md
  R15) and a byte offset lies below the buffer's size (20_memory.md R61). Safe: the model stops where the spec gives the
  access no meaning (log entry 14). -/
  | outsideBuffer (x : Buf)
  deriving DecidableEq, Repr

/-- Reasons a step can be refused. No step of a run from reset through the host port raises one. -/
inductive Refusal where
  /-- Raised by `exec` for an instruction without a meaning; no arm does. Safe. -/
  | notModelled (mnemonic : String)
  /-- Raised by `step` for a presented word that is no instruction: "a state that would execute an illegal micro-operation
  is a refusal" (30_encoding.md R102). Safe. -/
  | illegalEncoding (why : Illegal)
  /-- Raised by a feed or a finalise with `HCTX.open` = 0: the `require` clause that 40_hash_port.md R143 tells a model to
  treat as a refusal. Safe (log entry 14). -/
  | contextClosed
  /-- Raised by an `HNEW` with `HCTX.open` = 1: "`HNEW` is issued with `HCTX.open` = 0" (R143), a precondition that
  93_implementation_defined.md U13 treats as `refuse`. Safe (log entry 4). -/
  | contextOpen
  /-- Raised by `HUPDN` with `CNT ≥ DSZ(ALG)`: its `require` clause (R139, R143). Safe (log entry 14). -/
  | partialFeedTooLong
  /-- Raised by `ENCG.4` for a group whose three table entries do not all exist: "issued only for G < NGRP − 1, where all
  three entries exist" (44_mcf_encoder.md R291). Safe (log entry 14). -/
  | groupNotFull
  deriving DecidableEq, Repr

/-- The machine right after reset (10_state.md R48, 70_reset_and_hazards.md R430). -/
def State.reset : State where
  alg := 0
  rounds := 5000
  slen := 0
  plen := 0
  salt := []
  pw := []
  ph := .idle
  err := 0
  hctx := ⟨false, []⟩
  bufB := []
  bufC := []
  bufT := []
  bufP := []
  bufS := []
  cnt := 0
  i := 0
  g := 0
  enc := []
  pwMax := Config.pwMax.val
  agenda := []
  replies := []

end Sys2Proof.Machine
end

