-- ==== Sys2Proof/Machine/Operands.lean ====
section
/-! DEFINITION. Operand assembly (30_encoding.md R111): the sizes of the buffers, the feed lengths, the table sizes and the
entries of the permutation tables. -/
namespace Sys2Proof.Machine

/-- The size of a buffer in bytes (10_state.md R20). -/
def State.bufSize (s : State) : Buf → Nat
  | .pw | .p => s.pwMax
  | .salt | .s => 16
  | .b | .c | .t => 64
  | .enc => 86

/-- The contents of a buffer. -/
def State.buf (s : State) : Buf → Memory
  | .pw => s.pw
  | .salt => s.salt
  | .b => s.bufB
  | .p => s.bufP
  | .s => s.bufS
  | .c => s.bufC
  | .t => s.bufT
  | .enc => s.enc

/-- `s` with the contents of one buffer replaced. -/
def State.setBuf (s : State) : Buf → Memory → State
  | .pw, m => { s with pw := m }
  | .salt, m => { s with salt := m }
  | .b, m => { s with bufB := m }
  | .p, m => { s with bufP := m }
  | .s, m => { s with bufS := m }
  | .c, m => { s with bufC := m }
  | .t, m => { s with bufT := m }
  | .enc, m => { s with enc := m }

/-- `DSZ(ALG)` (00_scope.md R7). -/
def State.dsz (s : State) : Nat := digestSize s.alg

/-- The number of bytes that a feed of the buffer reads, and that a fill of it writes, by the buffer selected (20_memory.md
R67, 30_encoding.md R111). -/
def State.feedLen (s : State) : Buf → Nat
  | .pw | .p => s.plen.toNat
  | .salt | .s => s.slen.toNat
  | .b | .c | .t => s.dsz
  | .enc => 86

/-- `NGRP(alg)`: 11 for SHA256, 22 for SHA512 (R7); a free value from 1 to 22 for an unsupported `ALG` (log entry 2). -/
def groupCount (alg : Byte) : Nat :=
  if alg = 5 then 11 else if alg = 6 then 22 else (Config.openGroups alg).val + 1

/-- `ELEN(alg)`, the number of characters of the text: 43 for SHA256, 86 for SHA512 (R7; 44_mcf_encoder.md R287); a free
value from 0 to 86 for an unsupported `ALG`, for which the spec gives none (DESIGN CHOICE, log entry 2, safe). Used by the
host only. -/
def textLength (alg : Byte) : Nat :=
  if alg = 5 then 43 else if alg = 6 then 86 else (Config.openTextLength alg).val

/-- `PERM256` (44_mcf_encoder.md R282). -/
def perm256 : List Nat :=
  [20, 10, 0, 11, 1, 21, 2, 22, 12, 23, 13, 3, 14, 4, 24, 5, 25, 15, 26, 16, 6, 17, 7, 27, 8, 28, 18, 29, 19, 9, 30, 31]

/-- `PERM512` (R283). -/
def perm512 : List Nat :=
  [42, 21, 0, 1, 43, 22, 23, 2, 44, 45, 24, 3, 4, 46, 25, 26, 5, 47, 48, 27, 6, 7, 49, 28, 29, 8, 50, 51, 30, 9, 10, 52]
    ++ [31, 32, 11, 53, 54, 33, 12, 13, 55, 34, 35, 14, 56, 57, 36, 15, 16, 58, 37, 38, 17, 59, 60, 39, 18, 19, 61, 40,
      41, 20, 62, 63]

/-- `PERM[pos]` of the algorithm's table, if that entry exists (R285); a free value for an unsupported `ALG` (log entry 2). -/
def permEntry (alg : Byte) (pos : Nat) : Option Nat :=
  if alg = 5 then perm256[pos]? else if alg = 6 then perm512[pos]? else some (Config.openPerm alg pos).val

/-- `ALPHA`, the 64 characters `./0-9A-Za-z` as their ASCII codes (R281, R284). -/
def alpha : Bytes :=
  [0x2E, 0x2F, 0x30, 0x31, 0x32, 0x33, 0x34, 0x35, 0x36, 0x37, 0x38, 0x39]
    ++ [0x41, 0x42, 0x43, 0x44, 0x45, 0x46, 0x47, 0x48, 0x49, 0x4A, 0x4B, 0x4C, 0x4D]
    ++ [0x4E, 0x4F, 0x50, 0x51, 0x52, 0x53, 0x54, 0x55, 0x56, 0x57, 0x58, 0x59, 0x5A]
    ++ [0x61, 0x62, 0x63, 0x64, 0x65, 0x66, 0x67, 0x68, 0x69, 0x6A, 0x6B, 0x6C, 0x6D]
    ++ [0x6E, 0x6F, 0x70, 0x71, 0x72, 0x73, 0x74, 0x75, 0x76, 0x77, 0x78, 0x79, 0x7A]

/-- `ALPHA[q]` for a 6-bit group. -/
def alphaChar (q : BitVec 6) : Byte := alpha.getD q.toNat 0

/-- The format `G24` of a group's bytes: `w` = `b0 + 256·b1 + 65536·b2` (R109, 44_mcf_encoder.md R290). -/
def groupWord (b0 b1 b2 : Byte) : BitVec 24 :=
  b2 ++ b1 ++ b0

/-- The four characters of a group, `q0` first: `w[5:0]`, `w[11:6]`, `w[17:12]`, `w[23:18]` (R290). -/
def groupChars (b0 b1 b2 : Byte) : Bytes :=
  let w := groupWord b0 b1 b2
  [alphaChar (w.extractLsb' 0 6), alphaChar (w.extractLsb' 6 6), alphaChar (w.extractLsb' 12 6),
    alphaChar (w.extractLsb' 18 6)]

/-- `rep(D, n)`: `n` bytes, byte `k` = `D[k mod len(D)]` (00_scope.md R13). -/
def rep (d : Bytes) (n : Nat) : Bytes :=
  (List.range n).map fun k => d.getD (k % d.length) 0

end Sys2Proof.Machine
end

