-- ==== Sys2Proof/Machine/Flags.lean ====
section
/-! DEFINITION. The predicates of 10_state.md R43. The SCDE stores no condition codes: each is a function of the counters. -/
namespace Sys2Proof.Machine

/-- `ODD`: `I[0]` = 1. -/
def State.odd (s : State) : Bool := s.i.getLsbD 0

/-- `SEN`: `I mod 3 ≠ 0`. -/
def State.sen (s : State) : Bool := s.i.toNat % 3 != 0

/-- `PEN`: `I mod 7 ≠ 0`. -/
def State.pen (s : State) : Bool := s.i.toNat % 7 != 0

/-- `RTYPE` = `{ODD, SEN, PEN}`, ODD in bit 2 (30_encoding.md R106). -/
def State.rtype (s : State) : BitVec 3 :=
  BitVec.ofBool s.odd ++ BitVec.ofBool s.sen ++ BitVec.ofBool s.pen

/-- `LAST`: `I = ROUNDS`. -/
def State.last (s : State) : Bool := s.i == s.rounds

/-- `CZ`: `CNT = 0`. -/
def State.cz (s : State) : Bool := s.cnt == 0

/-- `CB`: `CNT[0]`. -/
def State.cb (s : State) : Bool := s.cnt.getLsbD 0

/-- `CGE`: `CNT ≥ DSZ(ALG)`. -/
def State.cge (s : State) : Bool := Nat.ble s.dsz s.cnt.toNat

/-- `GLAST`: `G = NGRP(ALG) − 1`. -/
def State.glast (s : State) : Bool := s.g.toNat == groupCount s.alg - 1

/-- The test of phase E0, `G < NGRP(ALG) − 1` (44_mcf_encoder.md R294). -/
def State.groupIsFull (s : State) : Bool := Nat.blt s.g.toNat (groupCount s.alg - 1)

/-- `STATUS`: a view of `PH` (10_state.md R28, 30_encoding.md R96): 0 IDLE, 1 BUSY, 2 DONE, 3 ERROR. -/
def State.status (s : State) : Byte :=
  match s.ph with
  | .idle => 0
  | .done => 2
  | .err => 3
  | _ => 1

/-- `STATUS` = BUSY. -/
def State.busy (s : State) : Bool := s.status == 1

end Sys2Proof.Machine
end

