-- ==== Sys2Proof/Machine/Ops.lean ====
section
/-! DEFINITION. The named operations over buffers, hash context and counters that the meanings are made of; error entry
(60_exceptions.md R400) with the ways out of ERROR beside it (R402); reset (70_reset_and_hazards.md R430). -/
namespace Sys2Proof.Machine

/-- What a step answers. -/
abbrev Answer := Host.Outcome State Fault Refusal

/-- Go on with `k` if the first part answers a next state; stop where it stops. -/
def andThen (a : Answer) (k : State → Answer) : Answer :=
  match a with
  | .next s => k s
  | .fault r => .fault r
  | .refused r => .refused r

/-! ## Buffers -/

/-- Byte `k` of a buffer: `X[k]`. An offset that is not listed reads 0. -/
def Memory.read : Memory → Nat → Byte
  | [], _ => 0
  | (a, v) :: m, k => if a = k then v else Memory.read m k

/-- The buffer without byte `k` in its list: byte `k` reads 0. -/
def Memory.erase (m : Memory) (k : Nat) : Memory :=
  m.filter fun cell => cell.1 != k

/-- A listed byte put at its place in the rising order of offsets. -/
def Memory.place : Memory → Nat → Byte → Memory
  | [], k, v => [(k, v)]
  | (a, u) :: m, k, v => if k < a then (k, v) :: (a, u) :: m else (a, u) :: Memory.place m k v

/-- `X[k] <- v`, keeping the canonical form: a byte 0 is not listed. -/
def Memory.write (m : Memory) (k : Nat) (v : Byte) : Memory :=
  if v = 0 then m.erase k else (m.erase k).place k v

/-- The `n` bytes from offset `off`: `X[off..off+n)` (00_scope.md R15), the bytes of `MemRead` when the range is in the
buffer. -/
def Memory.readBytes (m : Memory) (off n : Nat) : Bytes :=
  (List.range n).map fun k => m.read (off + k)

/-- The writes of `MemWrite(X, off, n, V)`: `V[k]` at offset `off + k` (R15). -/
def Memory.writeBytes : Memory → Nat → Bytes → Memory
  | m, _, [] => m
  | m, off, v :: vs => Memory.writeBytes (m.write off v) (off + 1) vs

/-- The canonical form: offsets strictly rising from `lo` on and below `size`, no listed byte 0. -/
def Memory.wfFrom (size : Nat) : Nat → Memory → Bool
  | _, [] => true
  | lo, (a, v) :: m => Nat.ble lo a && Nat.blt a size && v != 0 && Memory.wfFrom size (a + 1) m

/-- A buffer of `size` bytes in canonical form. -/
def Memory.wf (size : Nat) (m : Memory) : Bool := Memory.wfFrom size 0 m

/-- The range condition of an access of `n` bytes from offset 0 to a buffer of `size` bytes (R15). An access of no bytes is
always in range ("a feed of zero bytes is legal", 20_memory.md R67). -/
def fits (n size : Nat) : Bool := n == 0 || Nat.ble n size

/-! ## The hash port (40_hash_port.md R130) -/

/-- The state after *new*: an empty message, whatever `msg` held before (R132). -/
def hashNew (s : State) : State :=
  { s with hctx := ⟨true, []⟩ }

/-- *new* (R132), issued with `HCTX.open` = 0; with a context open it is refused (R143, 93_implementation_defined.md U13;
DEDUCED, log entry 4, safe). -/
def openContext (s : State) : Answer :=
  if s.hctx.isOpen then .refused .contextOpen else .next (hashNew s)

/-- The range condition of a feed or fill of a whole buffer, by the length the buffer has (R67; 00_scope.md R15). The digest
buffers hold any digest: `DSZ ≤ 64` (00_scope.md R7, 10_state.md R20). -/
def State.wholeInRange (s : State) : Buf → Bool
  | .pw | .p => fits s.plen.toNat s.pwMax
  | .salt | .s => fits s.slen.toNat 16
  | .b | .c | .t | .enc => true

/-- *update*: append the first `n` bytes of a buffer to the message. -/
def appendBytes (x : Buf) (n : Nat) (s : State) : State :=
  { s with hctx := ⟨true, s.hctx.msg ++ (s.buf x).readBytes 0 n⟩ }

/-- A feed of a whole buffer (R133 to R138), with the `require` clause of R143 and the range condition of R15. -/
def feedWhole (x : Buf) (s : State) : Answer :=
  if s.hctx.isOpen then
    if s.wholeInRange x then .next (appendBytes x (s.feedLen x) s) else .fault (.outsideBuffer x)
  else .refused .contextClosed

/-- A feed of the first `CNT` bytes of `B`, `CNT < DSZ(ALG)` (R139). -/
def feedPartial (s : State) : Answer :=
  if s.hctx.isOpen then
    if s.cge then .refused .partialFeedTooLong else .next (appendBytes .b s.cnt.toNat s)
  else .refused .contextClosed

/-- *finalise*: write `H(ALG, msg)` at offset 0 of a buffer and close the context (R140 to R142, R145). -/
def hashFinish (x : Buf) (s : State) : Answer :=
  if s.hctx.isOpen then
    .next { s.setBuf x ((s.buf x).writeBytes 0 (hashBytes s.alg s.hctx.msg)) with hctx := ⟨false, []⟩ }
  else .refused .contextClosed

/-! ## Fills and encoder groups -/

/-- `X[0..n) <- rep(T[0..DSZ), n)` for the length `n` that the buffer has (42_digest_setup.md R198, R199). -/
def fillFromT (x : Buf) (s : State) : Answer :=
  if s.wholeInRange x then
    .next (s.setBuf x ((s.buf x).writeBytes 0 (rep (s.bufT.readBytes 0 s.dsz) (s.feedLen x))))
  else .fault (.outsideBuffer x)

/-- Write the first `n` characters of the group with bytes `(b0, b1, b2)` at offset `off` of `ENC` (44_mcf_encoder.md R290). -/
def emitGroup (off n : Nat) (b0 b1 b2 : Byte) (s : State) : State :=
  { s with enc := s.enc.writeBytes off ((groupChars b0 b1 b2).take n) }

/-- The full group `G` at offset `4·G` (R291). -/
def encodeFullGroup (s : State) : Answer :=
  if s.groupIsFull then
    match permEntry s.alg (3 * s.g.toNat), permEntry s.alg (3 * s.g.toNat + 1), permEntry s.alg (3 * s.g.toNat + 2) with
    | some i0, some i1, some i2 =>
      .next (emitGroup (4 * s.g.toNat) 4 (s.bufC.read i0) (s.bufC.read i1) (s.bufC.read i2) s)
    | _, _, _ => .refused .groupNotFull
  else .refused .groupNotFull

/-- The last group of SHA256: `C[30]`, `C[31]`, three characters at offset 40, the constant of R292's pseudocode. R292 issues
it only with `ALG` = 5 and `G` = 10, where 20_memory.md R67's `4·G` is that constant; for another `ALG` or `G` the model takes
the constant all the same (DESIGN CHOICE, log entry 28, unsafe). -/
def encodeLastGroup256 (s : State) : State :=
  emitGroup 40 3 (s.bufC.read 30) (s.bufC.read 31) 0 s

/-- The last group of SHA512: `C[63]`, two characters at offset 84, the constant of R293's pseudocode. R293 issues it only
with `ALG` = 6 and `G` = 21, where R67's `4·G` is that constant; for another `ALG` or `G` the model takes the constant all the
same (DESIGN CHOICE, log entry 28, unsafe). -/
def encodeLastGroup512 (s : State) : State :=
  emitGroup 84 2 (s.bufC.read 63) 0 0 s

/-! ## Sequencing -/

/-- `PH <- p` (10_state.md R37). -/
def goto (p : Phase) (s : State) : State := { s with ph := p }

/-- `CNT <- v` (R40). -/
def setCnt (v : Word32) (s : State) : State := { s with cnt := v }

/-- `I <- v` (R41). -/
def setI (v : Word32) (s : State) : State := { s with i := v }

/-- `G <- v` (R42). -/
def setG (v : BitVec 5) (s : State) : State := { s with g := v }

/-- A phase: issue a micro-operation, then write counters and `PH`. No micro-operation of a phase that goes on writes a
counter or `PH` (40_hash_port.md R147), so this is the step's simultaneous write of 00_scope.md R15. -/
def issue (u : State → Answer) (finish : State → State) (s : State) : Answer :=
  andThen (u s) fun t => .next (finish t)

/-! ## Job check, errors, commands, reset -/

/-- The internal state at its job-start values: what `CHK` sets when it finds no error (10_state.md R49, 42_digest_setup.md
R227) and what error entry sets (60_exceptions.md R400). -/
def clearInternal (s : State) : State :=
  { s with
    bufB := [], bufC := [], bufT := [], bufP := [], bufS := [], enc := []
    hctx := ⟨false, []⟩, cnt := 0, i := 0, g := 0 }

/-- `ERR` codes (30_encoding.md R97). -/
def errUnsupportedAlgorithm : Byte := 0x01
/-- `ERR` code 0x02 (R97). -/
def errBadLength : Byte := 0x02
/-- `ERR` code 0x03 (R97). -/
def errBadCommand : Byte := 0x03

/-- TAKING AN ERROR, `raise E(code)` (60_exceptions.md R400): `ERR` gets the code, the internal state is cleared, `PH` gets
ERR; the job registers and buffers are unchanged and nothing else is saved (R401). -/
def raiseError (code : Byte) (s : State) : State :=
  { clearInternal s with err := code, ph := .err }

/-- The error of the job in the registers, if any, in the order of the tests of CHK (42_digest_setup.md R227, 60_exceptions.md
R394, R395, R398). -/
def jobError (s : State) : Option Byte :=
  if s.alg ≠ 5 ∧ s.alg ≠ 6 then some errUnsupportedAlgorithm
  else if 16 < s.slen.toNat ∨ fits s.plen.toNat s.pwMax = false then some errBadLength
  else none

/-- `CHK`, then `passed` if the job has no error (R227). -/
def checkJob (passed : State → State) (s : State) : Answer :=
  match jobError s with
  | some code => .next (raiseError code s)
  | none => .next (passed (clearInternal s))

/-- START, the way to a new job, out of ERROR among others (45_host_commands.md R331, 60_exceptions.md R402). -/
def startJob (s : State) : State :=
  { s with err := 0, ph := .chk }

/-- Every piece of the SCDE's state at its reset value (10_state.md R48): the effect of CLEAR (45_host_commands.md R332) and
of the reset event (70_reset_and_hazards.md R430). The parameter `PW_MAX`, the turns to come and the replies the host has are
no state of the SCDE and stay (log entry 22). -/
def toReset (s : State) : State :=
  { State.reset with pwMax := s.pwMax, agenda := s.agenda, replies := s.replies }

/-- A reserved command raises `BadCommand` (R333, 60_exceptions.md R399). -/
def badCommand (s : State) : State :=
  raiseError errBadCommand s

/-- While `STATUS` = BUSY every host write is ignored, commands among them (45_host_commands.md R325). -/
def unlessBusy (f : State → State) (s : State) : State :=
  if s.busy then s else f s

/-- The command with code `code` (R330). -/
def command (code : Byte) (s : State) : State :=
  if code = 0x01 then startJob s else if code = 0x02 then toReset s else badCommand s

/-! ## The host port -/

/-- The value of `HostRead(obj, idx)` (45_host_commands.md R321; 10_state.md R27 to R31; R327 for `PW`; 20_memory.md R69). -/
def hostReadValue (obj : Obj) (idx : Word32) (s : State) : Word32 :=
  match obj with
  | .status => s.status.setWidth 32
  | .err => s.err.setWidth 32
  | .alg => s.alg.setWidth 32
  | .rounds => s.rounds
  | .slen => s.slen.setWidth 32
  | .plen => s.plen
  | .salt => if idx.toNat < 16 then (s.salt.read idx.toNat).setWidth 32 else 0
  | .digest => if s.ph = .done ∧ idx.toNat < 64 then (s.bufC.read idx.toNat).setWidth 32 else 0
  | .enc => if s.ph = .done ∧ idx.toNat < 86 then (s.enc.read idx.toNat).setWidth 32 else 0
  | .ctrl | .pw | .reserved7 | .reservedC | .reservedD | .reservedE | .reservedF => 0

/-- The effect of `HostWrite(obj, idx, v)` while not BUSY (R322): bits of `v` above the object's width are dropped; a
read-only or reserved object, or an index outside the object, ignores the write (R69). -/
def hostWriteObj (obj : Obj) (idx v : Word32) (s : State) : State :=
  match obj with
  | .ctrl => command (v.setWidth 8) s
  | .alg => { s with alg := v.setWidth 8 }
  | .slen => { s with slen := v.setWidth 8 }
  | .rounds => { s with rounds := v }
  | .plen => { s with plen := v }
  | .salt => if idx.toNat < 16 then { s with salt := s.salt.write idx.toNat (v.setWidth 8) } else s
  | .pw => if idx.toNat < s.pwMax then { s with pw := s.pw.write idx.toNat (v.setWidth 8) } else s
  | .status | .err | .digest | .enc | .reserved7 | .reservedC | .reservedD | .reservedE | .reservedF => s

/-- The host takes the value a read returns. -/
def reply (v : Word32) (s : State) : State :=
  { s with replies := s.replies ++ [v] }

end Sys2Proof.Machine
end

