-- ==== Sys2Proof/Machine/Encoder.lean ====
section
/-! DEFINITION. The MCF encoder: ENCG.4, ENCG.3, ENCG.2 and the phases E0 and DONE (44_mcf_encoder.md). -/
namespace Sys2Proof.Machine

/-- `ENCG.4` (R291): encode full group `G`. -/
def execEncg4 (s : State) : Answer :=
  encodeFullGroup s

/-- `ENCG.3` (R292): encode the last group of SHA256. -/
def execEncg3 (s : State) : Answer :=
  .next (encodeLastGroup256 s)

/-- `ENCG.2` (R293): encode the last group of SHA512. -/
def execEncg2 (s : State) : Answer :=
  .next (encodeLastGroup512 s)

/-- Phase `E0` (R294): a full group while `G < NGRP(ALG) − 1`, else the last group and DONE. -/
def execPhE0 (s : State) : Answer :=
  if s.groupIsFull then issue encodeFullGroup (fun t => goto .e0 (setG (s.g + 1) t)) s
  else if s.alg = 5 then issue (fun t => .next (encodeLastGroup256 t)) (goto .done) s
  else issue (fun t => .next (encodeLastGroup512 t)) (goto .done) s

/-- Phase `DONE` (R295): terminal, the sequencer does nothing (60_exceptions.md R415; log entry 11). -/
def execPhDone (s : State) : Answer :=
  .next s

end Sys2Proof.Machine
end

