-- ==== Sys2Proof/Machine/Errors.lean ====
section
/-! DEFINITION. The error phase (60_exceptions.md). Error entry itself is `raiseError` of Ops.lean. -/
namespace Sys2Proof.Machine

/-- Phase `ERR` (R400, R401): terminal, the sequencer stops here until START, CLEAR or reset (R402; log entry 11). -/
def execPhErr (s : State) : Answer :=
  .next s

end Sys2Proof.Machine
end

