-- ==== Sys2Proof/Machine/HashPort.lean ====
section
/-! DEFINITION. The hash port family: HNEW, HUPD.*, HUPDN, HFIN.* (40_hash_port.md). -/
namespace Sys2Proof.Machine

/-- `HNEW` (R132): open an empty message. -/
def execHnew (s : State) : Answer :=
  openContext s

/-- `HUPD.PW` (R133): feed `PW[0..PLEN)`. -/
def execHupdPw (s : State) : Answer :=
  feedWhole .pw s

/-- `HUPD.SALT` (R134): feed `SALT[0..SLEN)`. -/
def execHupdSalt (s : State) : Answer :=
  feedWhole .salt s

/-- `HUPD.B` (R135): feed `B[0..DSZ)`. -/
def execHupdB (s : State) : Answer :=
  feedWhole .b s

/-- `HUPD.P` (R136): feed `P[0..PLEN)`. -/
def execHupdP (s : State) : Answer :=
  feedWhole .p s

/-- `HUPD.S` (R137): feed `S[0..SLEN)`. -/
def execHupdS (s : State) : Answer :=
  feedWhole .s s

/-- `HUPD.C` (R138): feed `C[0..DSZ)`. -/
def execHupdC (s : State) : Answer :=
  feedWhole .c s

/-- `HUPDN` (R139): feed `B[0..CNT)`. -/
def execHupdn (s : State) : Answer :=
  feedPartial s

/-- `HFIN.B` (R140): finalise into `B`. -/
def execHfinB (s : State) : Answer :=
  hashFinish .b s

/-- `HFIN.C` (R141): finalise into `C`. -/
def execHfinC (s : State) : Answer :=
  hashFinish .c s

/-- `HFIN.T` (R142): finalise into `T`. -/
def execHfinT (s : State) : Answer :=
  hashFinish .t s

end Sys2Proof.Machine
end

