-- ==== Sys2Proof/Machine/HostPort.lean ====
section
/-! DEFINITION. The host port: RD, WR, the commands, and the phase IDLE (45_host_commands.md). -/
namespace Sys2Proof.Machine

/-- `RD obj[idx]` (R321): the host gets the value; no read changes the SCDE. -/
def execRd (obj : Obj) (idx : Word32) (s : State) : Answer :=
  .next (reply (hostReadValue obj idx s) s)

/-- `WR obj[idx], data` (R322): ignored while BUSY (R325). -/
def execWr (obj : Obj) (idx data : Word32) (s : State) : Answer :=
  .next (unlessBusy (hostWriteObj obj idx data) s)

/-- `START` (R331), a write of 0x01 to `CTRL`: ignored while BUSY. -/
def execStart (s : State) : Answer :=
  .next (unlessBusy startJob s)

/-- `CLEAR` (R332), a write of 0x02 to `CTRL`: ignored while BUSY. -/
def execClear (s : State) : Answer :=
  .next (unlessBusy toReset s)

/-- A reserved command (R333), a write of its code to `CTRL`: `BadCommand`; ignored while BUSY. -/
def execCmdReserved (code : Byte) (s : State) : Answer :=
  .next (unlessBusy (command code) s)

/-- Phase `IDLE` (R331, 70_reset_and_hazards.md R432): terminal, the sequencer does nothing until START (60_exceptions.md
R415; log entry 11). -/
def execPhIdle (s : State) : Answer :=
  .next s

end Sys2Proof.Machine
end

