-- ==== Sys2Proof/Machine/RoundLoop.lean ====
section
/-! DEFINITION. The round loop: the eight round types and the phases RT to R5 (43_round_loop.md). -/
namespace Sys2Proof.Machine

/-- The feeds of a list of buffers, in order. -/
def feedAll : List Buf → State → Answer
  | [], s => .next s
  | x :: xs, s => andThen (feedWhole x s) (feedAll xs)

/-- The six steps of one round whose feeds are `xs` (30_encoding.md R107, R116; 43_round_loop.md section 2): HNEW, the feeds
(a NOP of the expansion changes nothing), HFIN.C, `I <- I + 1`, and RT as the next phase (R257). The named expansion runs
whatever `RTYPE` the round counter has, and also with `I` = `ROUNDS`, where phase RT would open no round and go on to E0 (R252):
there `I` passes `ROUNDS` (DESIGN CHOICE, log entry 13). `I + 1` is modulo 2^32 (DESIGN CHOICE, log entry 30, unsafe). -/
def roundOf (xs : List Buf) (s : State) : Answer :=
  andThen (openContext s) fun t => andThen (feedAll xs t) fun u =>
    issue (hashFinish .c) (fun v => goto .rt (setI (s.i + 1) v)) u

/-- `RND.CP` (R241): message `C ‖ P`. -/
def execRndCp (s : State) : Answer :=
  roundOf [.c, .p] s

/-- `RND.CPP` (R242): message `C ‖ P ‖ P`. -/
def execRndCpp (s : State) : Answer :=
  roundOf [.c, .p, .p] s

/-- `RND.CSP` (R243): message `C ‖ S ‖ P`. -/
def execRndCsp (s : State) : Answer :=
  roundOf [.c, .s, .p] s

/-- `RND.CSPP` (R244): message `C ‖ S ‖ P ‖ P`. -/
def execRndCspp (s : State) : Answer :=
  roundOf [.c, .s, .p, .p] s

/-- `RND.PC` (R245): message `P ‖ C`. -/
def execRndPc (s : State) : Answer :=
  roundOf [.p, .c] s

/-- `RND.PPC` (R246): message `P ‖ P ‖ C`. -/
def execRndPpc (s : State) : Answer :=
  roundOf [.p, .p, .c] s

/-- `RND.PSC` (R247): message `P ‖ S ‖ C`. -/
def execRndPsc (s : State) : Answer :=
  roundOf [.p, .s, .c] s

/-- `RND.PSPC` (R248): message `P ‖ S ‖ P ‖ C`. -/
def execRndPspc (s : State) : Answer :=
  roundOf [.p, .s, .p, .c] s

/-- Phase `RT` (R252): all rounds done: E0; else HNEW; R1. -/
def execPhRt (s : State) : Answer :=
  if s.last then issue (fun t => .next t) (goto .e0) s
  else issue openContext (goto .r1) s

/-- Phase `R1` (R253): **P** if `I` is odd, else `C`; R2. -/
def execPhR1 (s : State) : Answer :=
  if s.odd then issue (feedWhole .p) (goto .r2) s else issue (feedWhole .c) (goto .r2) s

/-- Phase `R2` (R254): **S** if `I mod 3 ≠ 0`; R3. -/
def execPhR2 (s : State) : Answer :=
  if s.sen then issue (feedWhole .s) (goto .r3) s else issue (fun t => .next t) (goto .r3) s

/-- Phase `R3` (R255): **P** if `I mod 7 ≠ 0`; R4. -/
def execPhR3 (s : State) : Answer :=
  if s.pen then issue (feedWhole .p) (goto .r4) s else issue (fun t => .next t) (goto .r4) s

/-- Phase `R4` (R256): `C` if `I` is odd, else **P**; R5. -/
def execPhR4 (s : State) : Answer :=
  if s.odd then issue (feedWhole .c) (goto .r5) s else issue (feedWhole .p) (goto .r5) s

/-- Phase `R5` (R257): HFIN.C; `I <- I + 1`; RT. The sum is modulo 2^32; R262 says that the sequencer never computes it at
2^32 - 1 (DESIGN CHOICE, log entry 30, unsafe). -/
def execPhR5 (s : State) : Answer :=
  issue (hashFinish .c) (fun t => goto .rt (setI (s.i + 1) t)) s

end Sys2Proof.Machine
end

