-- ==== Sys2Proof/Machine/Setup.lean ====
section
/-! DEFINITION. The set-up family: NOP, CHK, FILL.P, FILL.S and the phases CHK to S0 (42_digest_setup.md). A
phase presented by itself runs whatever `PH` holds (DESIGN CHOICE, log entry 12, safe). -/
namespace Sys2Proof.Machine

/-- `NOP` (R226): nothing is changed. -/
def execNop (s : State) : Answer :=
  .next s

/-- `CHK` (R227): validate the job and clear the internal state. -/
def execChk (s : State) : Answer :=
  checkJob id s

/-- `FILL.P` (R198): build **P** from `T`. -/
def execFillP (s : State) : Answer :=
  fillFromT .p s

/-- `FILL.S` (R199): build **S** from `T`. -/
def execFillS (s : State) : Answer :=
  fillFromT .s s

/-- Phase `CHK` (R200): CHK; error entry, or B0. -/
def execPhChk (s : State) : Answer :=
  checkJob (goto .b0) s

/-- Phase `B0` (R201): HNEW; B1. -/
def execPhB0 (s : State) : Answer :=
  issue openContext (goto .b1) s

/-- Phase `B1` (R202): HUPD.PW; B2. -/
def execPhB1 (s : State) : Answer :=
  issue (feedWhole .pw) (goto .b2) s

/-- Phase `B2` (R203): HUPD.SALT; B3. -/
def execPhB2 (s : State) : Answer :=
  issue (feedWhole .salt) (goto .b3) s

/-- Phase `B3` (R204): HUPD.PW; B4. -/
def execPhB3 (s : State) : Answer :=
  issue (feedWhole .pw) (goto .b4) s

/-- Phase `B4` (R205): HFIN.B; A0. -/
def execPhB4 (s : State) : Answer :=
  issue (hashFinish .b) (goto .a0) s

/-- Phase `A0` (R206): HNEW; A1. -/
def execPhA0 (s : State) : Answer :=
  issue openContext (goto .a1) s

/-- Phase `A1` (R207): HUPD.PW; A2. -/
def execPhA1 (s : State) : Answer :=
  issue (feedWhole .pw) (goto .a2) s

/-- Phase `A2` (R208): HUPD.SALT; `CNT <- PLEN`; A3. -/
def execPhA2 (s : State) : Answer :=
  issue (feedWhole .salt) (fun t => goto .a3 (setCnt s.plen t)) s

/-- Phase `A3` (R209): a full copy of **B** while `CNT ≥ DSZ`, then the first `CNT` bytes of it. -/
def execPhA3 (s : State) : Answer :=
  if s.cge then
    issue (feedWhole .b) (fun t => goto .a3 (setCnt (s.cnt - BitVec.ofNat 32 s.dsz) t)) s
  else
    issue feedPartial (fun t => goto .a4 (setCnt s.plen t)) s

/-- Phase `A4` (R210): one feed per bit of `CNT`, least significant first: **B** for 1, the password for 0. -/
def execPhA4 (s : State) : Answer :=
  if s.cz then issue (fun t => .next t) (goto .a5) s
  else if s.cb then issue (feedWhole .b) (fun t => goto .a4 (setCnt (s.cnt >>> 1) t)) s
  else issue (feedWhole .pw) (fun t => goto .a4 (setCnt (s.cnt >>> 1) t)) s

/-- Phase `A5` (R211): HFIN.C; DP0. -/
def execPhA5 (s : State) : Answer :=
  issue (hashFinish .c) (goto .dp0) s

/-- Phase `DP0` (R212): HNEW; `CNT <- PLEN`; DP1. -/
def execPhDp0 (s : State) : Answer :=
  issue openContext (fun t => goto .dp1 (setCnt s.plen t)) s

/-- Phase `DP1` (R213): HUPD.PW and `CNT <- CNT − 1` while `CNT ≠ 0`, then DP2. -/
def execPhDp1 (s : State) : Answer :=
  if s.cz then issue (fun t => .next t) (goto .dp2) s
  else issue (feedWhole .pw) (fun t => goto .dp1 (setCnt (s.cnt - 1) t)) s

/-- Phase `DP2` (R214): HFIN.T; P0. -/
def execPhDp2 (s : State) : Answer :=
  issue (hashFinish .t) (goto .p0) s

/-- Phase `P0` (R215): FILL.P; DS0. -/
def execPhP0 (s : State) : Answer :=
  issue (fillFromT .p) (goto .ds0) s

/-- Phase `DS0` (R216): HNEW; `CNT <- 16 + zext_32(C[0])`; DS1. -/
def execPhDs0 (s : State) : Answer :=
  issue openContext (fun t => goto .ds1 (setCnt (16 + (s.bufC.read 0).setWidth 32) t)) s

/-- Phase `DS1` (R217): HUPD.SALT and `CNT <- CNT − 1` while `CNT ≠ 0`, then DS2. -/
def execPhDs1 (s : State) : Answer :=
  if s.cz then issue (fun t => .next t) (goto .ds2) s
  else issue (feedWhole .salt) (fun t => goto .ds1 (setCnt (s.cnt - 1) t)) s

/-- Phase `DS2` (R218): HFIN.T; S0. -/
def execPhDs2 (s : State) : Answer :=
  issue (hashFinish .t) (goto .s0) s

/-- Phase `S0` (R219): FILL.S; `I <- 0`; RT. -/
def execPhS0 (s : State) : Answer :=
  issue (fillFromT .s) (fun t => goto .rt (setI 0 t)) s

end Sys2Proof.Machine
end

