-- ==== Sys2Proof/Machine/Dispatch.lean ====
section
/-! DEFINITION. Which meaning each instruction has: one arm per constructor of `Instr`, in the table's order. -/
namespace Sys2Proof.Machine

def exec (i : Instr) (s : State) : Host.Outcome State Fault Refusal :=
  match i with
  | .nop => Sys2Proof.Machine.execNop s
  | .chk => Sys2Proof.Machine.execChk s
  | .hnew => Sys2Proof.Machine.execHnew s
  | .hupdPw => Sys2Proof.Machine.execHupdPw s
  | .hupdSalt => Sys2Proof.Machine.execHupdSalt s
  | .hupdB => Sys2Proof.Machine.execHupdB s
  | .hupdP => Sys2Proof.Machine.execHupdP s
  | .hupdS => Sys2Proof.Machine.execHupdS s
  | .hupdC => Sys2Proof.Machine.execHupdC s
  | .hupdn => Sys2Proof.Machine.execHupdn s
  | .hfinB => Sys2Proof.Machine.execHfinB s
  | .hfinC => Sys2Proof.Machine.execHfinC s
  | .hfinT => Sys2Proof.Machine.execHfinT s
  | .fillP => Sys2Proof.Machine.execFillP s
  | .fillS => Sys2Proof.Machine.execFillS s
  | .encg4 => Sys2Proof.Machine.execEncg4 s
  | .encg3 => Sys2Proof.Machine.execEncg3 s
  | .encg2 => Sys2Proof.Machine.execEncg2 s
  | .rd obj idx => Sys2Proof.Machine.execRd obj idx s
  | .wr obj idx data => Sys2Proof.Machine.execWr obj idx data s
  | .start => Sys2Proof.Machine.execStart s
  | .clear => Sys2Proof.Machine.execClear s
  | .cmdReserved code => Sys2Proof.Machine.execCmdReserved code s
  | .rndCp => Sys2Proof.Machine.execRndCp s
  | .rndCpp => Sys2Proof.Machine.execRndCpp s
  | .rndCsp => Sys2Proof.Machine.execRndCsp s
  | .rndCspp => Sys2Proof.Machine.execRndCspp s
  | .rndPc => Sys2Proof.Machine.execRndPc s
  | .rndPpc => Sys2Proof.Machine.execRndPpc s
  | .rndPsc => Sys2Proof.Machine.execRndPsc s
  | .rndPspc => Sys2Proof.Machine.execRndPspc s
  | .phIdle => Sys2Proof.Machine.execPhIdle s
  | .phChk => Sys2Proof.Machine.execPhChk s
  | .phB0 => Sys2Proof.Machine.execPhB0 s
  | .phB1 => Sys2Proof.Machine.execPhB1 s
  | .phB2 => Sys2Proof.Machine.execPhB2 s
  | .phB3 => Sys2Proof.Machine.execPhB3 s
  | .phB4 => Sys2Proof.Machine.execPhB4 s
  | .phA0 => Sys2Proof.Machine.execPhA0 s
  | .phA1 => Sys2Proof.Machine.execPhA1 s
  | .phA2 => Sys2Proof.Machine.execPhA2 s
  | .phA3 => Sys2Proof.Machine.execPhA3 s
  | .phA4 => Sys2Proof.Machine.execPhA4 s
  | .phA5 => Sys2Proof.Machine.execPhA5 s
  | .phDp0 => Sys2Proof.Machine.execPhDp0 s
  | .phDp1 => Sys2Proof.Machine.execPhDp1 s
  | .phDp2 => Sys2Proof.Machine.execPhDp2 s
  | .phP0 => Sys2Proof.Machine.execPhP0 s
  | .phDs0 => Sys2Proof.Machine.execPhDs0 s
  | .phDs1 => Sys2Proof.Machine.execPhDs1 s
  | .phDs2 => Sys2Proof.Machine.execPhDs2 s
  | .phS0 => Sys2Proof.Machine.execPhS0 s
  | .phRt => Sys2Proof.Machine.execPhRt s
  | .phR1 => Sys2Proof.Machine.execPhR1 s
  | .phR2 => Sys2Proof.Machine.execPhR2 s
  | .phR3 => Sys2Proof.Machine.execPhR3 s
  | .phR4 => Sys2Proof.Machine.execPhR4 s
  | .phR5 => Sys2Proof.Machine.execPhR5 s
  | .phE0 => Sys2Proof.Machine.execPhE0 s
  | .phDone => Sys2Proof.Machine.execPhDone s
  | .phErr => Sys2Proof.Machine.execPhErr s

end Sys2Proof.Machine
end

