-- ==== Sys2Proof/Machine/Fetch.lean ====
section
/-! DEFINITION. What runs next: the sequencer's phase or an instruction that the outside world presents. -/
namespace Sys2Proof.Machine

/-- The word of the phase in `PH`, which the sequencer performs next (10_state.md R37, 20_memory.md R79). -/
def sequencerWord (s : State) : Format × Nat := (.phase, s.ph.code.toNat)

/-- The read of `STATUS` that ends a poll (30_encoding.md R116). -/
def readStatusWord : Format × Nat := encode (.rd .status 0)

/-- The word that runs next and the state in which it runs (the turn taken off the agenda). A poll stays on the agenda while
`STATUS` is BUSY and lets the sequencer go on (log entry 6). A reset presents no word. -/
def fetch (s : State) : Option ((Format × Nat) × State) :=
  match s.agenda with
  | [] => some (sequencerWord s, s)
  | .seq :: rest => some (sequencerWord s, { s with agenda := rest })
  | .word f w :: rest => some ((f, w), { s with agenda := rest })
  | .poll :: rest =>
    if s.busy then some (sequencerWord s, s) else some (readStatusWord, { s with agenda := rest })
  | .reset :: _ => none

/-- The reset event: every phase accepts it, BUSY included (70_reset_and_hazards.md R430, R431). -/
def resetEvent (s : State) : State :=
  toReset { s with agenda := s.agenda.tail }

end Sys2Proof.Machine
end

