-- ==== Sys2Proof/Machine/Step.lean ====
section
/-! DEFINITION. One step of the machine: fetch what runs next, decode it, run it; or the reset event. -/
namespace Sys2Proof.Machine

/-- One step (00_scope.md R10): atomic, of the sequencer, the host or reset, as the agenda says. A word that is no
instruction is refused by name (30_encoding.md R102). -/
def step (s : State) : Host.Outcome State Fault Refusal :=
  match fetch s with
  | none => .next (resetEvent s)
  | some ((f, w), t) =>
    match decode f w with
    | .instr i => exec i t
    | .illegal why => .refused (.illegalEncoding why)

/-- `s` with a word of the opcode table presented as the next turn, in the format `tableFormat` reads it (log entries 7, 9). -/
def State.withFetchWord (s : State) (nbits w : Nat) : State :=
  { s with agenda := .word (tableFormat nbits w) w :: s.agenda }

end Sys2Proof.Machine
end

