-- ==== Sys2Proof/Machine/Functions.lean ====
section
/-! DEFINITION. What a job computes, as functions of the job: the set-up values (42_digest_setup.md R190 to R197), the round
loop (43_round_loop.md R240, R250, R251) and the encoder (44_mcf_encoder.md R285 to R288). The sequencer is compared with
them; no step uses them. -/
namespace Sys2Proof.Machine

/-- A job, format `JOB` (30_encoding.md R91). -/
structure Job where
  alg : Byte
  rounds : Nat
  salt : Bytes
  pw : Bytes
  deriving DecidableEq, Repr

/-- The job in the registers: bytes beyond the lengths do not belong to it (R91). -/
def State.job (s : State) : Job where
  alg := s.alg
  rounds := s.rounds.toNat
  salt := s.salt.readBytes 0 s.slen.toNat
  pw := s.pw.readBytes 0 s.plen.toNat

/-- `X^n` (00_scope.md R12). -/
def power (x : Bytes) (n : Nat) : Bytes :=
  (List.replicate n x).flatten

/-- The bits of a number from the least significant to its highest set bit, with fuel (42_digest_setup.md R191). -/
def lowBitsFrom : Nat → Nat → List Bool
  | 0, _ => []
  | fuel + 1, n => if n = 0 then [] else (n % 2 == 1) :: lowBitsFrom fuel (n / 2)

/-- The bits of `n` from the least significant to its highest set bit; their number is the `L` of R191. -/
def lowBits (n : Nat) : List Bool := lowBitsFrom n n

/-- **B** = `H(pw ‖ salt ‖ pw)` (R190). -/
def Job.digestB (j : Job) : Bytes :=
  hashBytes j.alg (j.pw ++ j.salt ++ j.pw)

/-- The message of accumulator **A** (R191). -/
def Job.messageA (j : Job) : Bytes :=
  let n := j.pw.length
  let b := j.digestB
  j.pw ++ j.salt ++ power b (n / digestSize j.alg) ++ b.take (n % digestSize j.alg)
    ++ (lowBits n).flatMap fun bit => if bit then b else j.pw

/-- `digestA` (R192). -/
def Job.digestA (j : Job) : Bytes :=
  hashBytes j.alg j.messageA

/-- `digestDP` = `H(pw^n)` (R193). -/
def Job.digestDP (j : Job) : Bytes :=
  hashBytes j.alg (power j.pw j.pw.length)

/-- **P** = `rep(digestDP, n)` (R194). -/
def Job.seqP (j : Job) : Bytes :=
  rep j.digestDP j.pw.length

/-- The repetition count `16 + digestA[0]` (R195). -/
def Job.saltCount (j : Job) : Nat :=
  16 + (j.digestA.getD 0 0).toNat

/-- `digestDS` = `H(salt^(16 + digestA[0]))` (R195). -/
def Job.digestDS (j : Job) : Bytes :=
  hashBytes j.alg (power j.salt j.saltCount)

/-- **S** = `rep(digestDS, len(salt))` (R196). -/
def Job.seqS (j : Job) : Bytes :=
  rep j.digestDS j.salt.length

/-- The message of round `i` on the previous digest `x` (43_round_loop.md R240). -/
def roundMessage (p s : Bytes) (i : Nat) (x : Bytes) : Bytes :=
  (if i % 2 = 1 then p else x) ++ (if i % 3 ≠ 0 then s else []) ++ (if i % 7 ≠ 0 then p else [])
    ++ (if i % 2 = 1 then x else p)

/-- `Round(i, X)` with the sequences **P** and **S** (R240). -/
def roundDigest (alg : Byte) (p s : Bytes) (i : Nat) (x : Bytes) : Bytes :=
  hashBytes alg (roundMessage p s i x)

/-- The chain of R250 from `C_{-1}` = `x`: after `n` rounds it holds `C_{n-1}`. -/
def chainFrom (alg : Byte) (p s x : Bytes) : Nat → Bytes
  | 0 => x
  | n + 1 => roundDigest alg p s n (chainFrom alg p s x n)

/-- The raw digest of the job, `C_{rounds-1}` (R251). -/
def Job.digest (j : Job) : Bytes :=
  chainFrom j.alg j.seqP j.seqS j.digestA j.rounds

/-- The byte of digest `d` that entry `pos` of the permutation table selects; 0 for an entry that does not exist
(44_mcf_encoder.md R285, R286). -/
def gather (alg : Byte) (d : Bytes) (pos : Nat) : Byte :=
  match permEntry alg pos with
  | some k => d.getD k 0
  | none => 0

/-- The characters of all groups of a digest (R285, R290). -/
def encodeGroups (alg : Byte) (d : Bytes) : Bytes :=
  (List.range (groupCount alg)).flatMap fun g =>
    groupChars (gather alg d (3 * g)) (gather alg d (3 * g + 1)) (gather alg d (3 * g + 2))

/-- `Encode(alg, D)`: the characters of the groups, the last ones dropped (R287, R288). -/
def encodeText (alg : Byte) (d : Bytes) : Bytes :=
  (encodeGroups alg d).take (textLength alg)

/-- The number of sequencer steps of a job that passes CHK (70_reset_and_hazards.md R445). -/
def Job.steps (j : Job) : Nat :=
  37 + j.pw.length / digestSize j.alg + (lowBits j.pw.length).length + j.pw.length + (j.digestA.getD 0 0).toNat
    + 6 * j.rounds + groupCount j.alg

end Sys2Proof.Machine
end

