-- ==== Sys2Proof/Machine/HostProgram.lean ====
section
/-! DEFINITION. What a host puts on the agenda: accesses, the pseudo-instructions of 30_encoding.md R116, and the protocol of
45_host_commands.md R337; and what a host that follows the protocol gets from the block. -/
namespace Sys2Proof.Machine

/-- One encoded instruction as a turn. -/
def turnOf (i : Instr) : Turn := .word i.format i.word

/-- `WR obj[k], v` (R115). -/
def wrTurn (obj : Obj) (k v : Nat) : Turn := turnOf (.wr obj (BitVec.ofNat 32 k) (BitVec.ofNat 32 v))

/-- `RD obj[k]` (R115). -/
def rdTurn (obj : Obj) (k : Nat) : Turn := turnOf (.rd obj (BitVec.ofNat 32 k))

/-- Writes of the bytes of a sequence to an object, from an index on. An index that the 32-bit `idx` cannot hold loses its
bits above 31, so that a byte at 2^32 or beyond goes where its low 32 bits say (DESIGN CHOICE, log entry 29). -/
def wrBytes (obj : Obj) : Nat → Bytes → List Turn
  | _, [] => []
  | k, v :: vs => wrTurn obj k v.toNat :: wrBytes obj (k + 1) vs

/-- `LOADPW "s"` (R116). A length that `PLEN` cannot hold is written as its largest value, so that the job ends in `BadLength`
and is not one of a shorter password (DESIGN CHOICE, log entry 29, safe). -/
def loadPw (pw : Bytes) : List Turn := wrBytes .pw 0 pw ++ [wrTurn .plen 0 (min pw.length 0xFFFFFFFF)]

/-- `LOADSALT "s"` (R116). The bits of the length that `SLEN` does not have are dropped by the write (45_host_commands.md R322).
-/
def loadSalt (salt : Bytes) : List Turn := wrBytes .salt 0 salt ++ [wrTurn .slen 0 salt.length]

/-- `GO` (R116). -/
def goTurn : Turn := wrTurn .ctrl 0 0x01

/-- `WAIT` (R116). -/
def waitTurn : Turn := .poll

/-- `RDDIGEST` (R116). -/
def rdDigest (alg : Byte) : List Turn := (List.range (digestSize alg)).map (rdTurn .digest)

/-- `RDENC` (R116). -/
def rdEnc (alg : Byte) : List Turn := (List.range (textLength alg)).map (rdTurn .enc)

/-- Steps (2) and (3) of the protocol of R337: write the job, START. R337 leaves the order of the writes to the host; this host
writes `ALG`, `ROUNDS`, `SALT`, `SLEN`, `PW`, `PLEN` (DESIGN CHOICE, log entry 31, safe). A job has 32-bit `ROUNDS`
(30_encoding.md R91); of a larger number the bits above 31 are dropped (log entry 29). -/
def submitJob (j : Job) : List Turn :=
  wrTurn .alg 0 j.alg.toNat :: wrTurn .rounds 0 j.rounds :: (loadSalt j.salt ++ loadPw j.pw ++ [goTurn])

/-- Steps (1) to (4) of the protocol of R337: wait, write the job, START, wait. -/
def submitProtocol (j : Job) : List Turn := waitTurn :: (submitJob j ++ [waitTurn])

/-- Steps (5) and (6) after DONE: read `DIGEST`, then `ENC`, then CLEAR. R337 has a host read one of the two or both, in no
stated order; this host reads both (DESIGN CHOICE, log entry 31, safe). -/
def collectResult (alg : Byte) : List Turn := rdDigest alg ++ rdEnc alg ++ [wrTurn .ctrl 0 0x02]

/-- Steps (5) and (6) after ERROR: read `ERR`, CLEAR. -/
def collectError : List Turn := [rdTurn .err 0, wrTurn .ctrl 0 0x02]

/-- The protocol of R337 for one job that ends in DONE. -/
def jobProtocol (j : Job) : List Turn := submitProtocol j ++ collectResult j.alg

/-- The protocol of R337 for one job that ends in ERROR. -/
def failedJobProtocol (j : Job) : List Turn := submitProtocol j ++ collectError

/-! ## Following the protocol on a block -/

/-- `n` steps of a block whose host has these turns to come. -/
def runTurns (n : Nat) (turns : List Turn) (s : State) : Answer :=
  Sys2Proof.core.run n { s with agenda := turns }

/-- The last value that the host has read. -/
def State.lastReply (s : State) : Word32 := s.replies.getLast?.getD 0

/-- Steps enough for `submitProtocol` on a block that is not BUSY: one for each turn, and a bound on the `N` of
70_reset_and_hazards.md R445 whatever the digests are. The steps left over change nothing (60_exceptions.md R415). -/
def Job.submitSteps (j : Job) : Nat := (submitProtocol j).length + (314 + 3 * j.pw.length + 6 * j.rounds)

/-- The whole protocol of R337: submit the job and wait, then read the result or the error as the last `STATUS` says, and
CLEAR. -/
def serveJob (j : Job) (s : State) : Answer :=
  andThen (runTurns j.submitSteps (submitProtocol j) s) fun t =>
    let rest := if t.lastReply = 2 then collectResult j.alg else collectError
    runTurns rest.length rest t

/-- What the host has got of one job (R337, step 5). -/
inductive JobResult where
  /-- After DONE: the bytes of `DIGEST` and of `ENC`. -/
  | done (digest text : Bytes)
  /-- After ERROR: the code in `ERR` (60_exceptions.md R392). -/
  | failed (code : Byte)
  /-- The block has not answered. No block after reset does so: the statement HashVerifies covers every call of `hash`. -/
  | unanswered
  deriving DecidableEq, Repr

/-- The result in the values the host has read: the status before the job, the status after it, then the bytes of the result
or the code. -/
def jobResult (alg : Byte) : List Word32 → JobResult
  | _ :: status :: values =>
    let bytes := values.map (BitVec.setWidth 8)
    if status = 2 then .done (bytes.take (digestSize alg)) (bytes.drop (digestSize alg))
    else .failed (bytes.headD 0)
  | _ => .unanswered

/-- The result of a job on a block of `PW_MAX` = `pwMax` in its reset state, in which the protocol also leaves it (R337, step
6; R332). -/
def runJob (pwMax : Nat) (j : Job) : JobResult :=
  match serveJob j { State.reset with pwMax := pwMax } with
  | .next t => jobResult j.alg t.replies
  | .fault _ | .refused _ => .unanswered

end Sys2Proof.Machine
end

