-- ==== Sys2Proof/Machine/Facade.lean ====
section
/-! DEFINITION. The host software around the SCDE (46_parser_facade.md): the parser of MCF prefixes, the assembly of the MCF
string, `hash`, `verify` and its comparison. Nothing here is inside the block, which `hash` uses through the protocol of
45_host_commands.md R337; strings are byte sequences. -/
namespace Sys2Proof.Machine

/-- A text of ASCII characters as its codes (30_encoding.md R115). -/
def ascii (text : String) : Bytes := text.toList.map fun c => BitVec.ofNat 8 c.toNat

/-- The bytes of a text password: its UTF-8 encoding, made by the host (R364, 92_eei_decisions.md D18; log
entry 24). -/
def passwordBytes (text : String) : Bytes := text.toUTF8.data.toList.map fun u => u.toBitVec

/-- `$` as its ASCII code (R352, R365). -/
def dollar : Byte := 0x24

/-- `rounds=` as its ASCII codes (R355). -/
def roundsMark : Bytes := [0x72, 0x6F, 0x75, 0x6E, 0x64, 0x73, 0x3D]

/-- Why the parser fails (R353, R354, R359, R360). -/
inductive ParseError where
  /-- `UnsupportedAlgorithm` (R354). -/
  | unsupportedAlgorithm
  /-- `InvalidSaltString` (R353, R359, R360). -/
  | invalidSaltString
  /-- No answer of D0's parser: the text after `rounds=` is empty or not all decimal digits, which R355 makes a precondition
  of `Parse` (93_implementation_defined.md U6; log entry 19). -/
  | outsidePrecondition
  deriving DecidableEq, Repr

/-- The parameter object (R350) with the flag `explicit` of R361. -/
structure Parameters where
  alg : Byte
  rounds : Nat
  salt : Bytes
  explicit : Bool
  deriving DecidableEq, Repr

/-- What the parser answers. -/
inductive Parsed where
  | ok (p : Parameters)
  | error (e : ParseError)
  deriving DecidableEq, Repr

/-- The pieces between `$` signs, empty ones among them (R352). -/
def splitDollar : Bytes → List Bytes
  | [] => [[]]
  | c :: cs =>
    match splitDollar cs with
    | [] => [[c]]
    | piece :: rest => if c = dollar then [] :: piece :: rest else (c :: piece) :: rest

/-- The segments of a prefix: split at every `$`, empty pieces discarded (R352). -/
def segments (mcf : Bytes) : List Bytes :=
  (splitDollar mcf).filter fun piece => !piece.isEmpty

/-- The algorithm a segment names: `5` or `6` (R354). -/
def parseAlgorithm (seg : Bytes) : Option Byte :=
  if seg = [0x35] then some 5 else if seg = [0x36] then some 6 else none

/-- The character is a decimal digit. -/
def isDigit (c : Byte) : Bool := Nat.ble 0x30 c.toNat && Nat.ble c.toNat 0x39

/-- The value of a non-empty string of decimal digits (R355). -/
def decimalValue (l : Bytes) : Option Nat :=
  if l.isEmpty || !l.all isDigit then none else some (l.foldl (fun acc c => acc * 10 + (c.toNat - 0x30)) 0)

/-- The clamp of R356. -/
def clampRounds (v : Nat) : Nat := min (max v 1000) 999999999

/-- The segment is a rounds segment (R355). -/
def isRoundsSegment (seg : Bytes) : Bool := seg.take 7 == roundsMark

/-- The salt alphabet test on the salt after truncation to 16 bytes (R357, R360). -/
def checkSalt (alg : Byte) (rounds : Nat) (explicit : Bool) (salt : Bytes) : Parsed :=
  if (salt.take 16).all fun c => alpha.contains c then .ok ⟨alg, rounds, salt.take 16, explicit⟩
  else .error .invalidSaltString

/-- A prefix with a rounds segment: its clamped value, then the salt. -/
def withRounds (alg : Byte) (seg salt : Bytes) : Parsed :=
  match decimalValue (seg.drop 7) with
  | some v => checkSalt alg (clampRounds v) true salt
  | none => .error .outsidePrecondition

/-- `Parse(prefix)` (R352 to R361), the segment count tested first, then the algorithm (R354, D27), then the form of the
segments and the salt. The spec does not order the tests of R354 and of R359 and R360: a prefix that breaks both, such as
`$7$abc$def` or `$7$sa-lt`, gets `UnsupportedAlgorithm` (DESIGN CHOICE, log entry 19). `generate` is the salt generator of R372,
an oracle, used when no salt is supplied (R358; log entry 20). -/
def parse (generate : Nat → Bytes) (mcf : Bytes) : Parsed :=
  match segments mcf with
  | [a] => match parseAlgorithm a with
    | some alg => checkSalt alg 5000 false (generate 16)
    | none => .error .unsupportedAlgorithm
  | [a, x] => match parseAlgorithm a with
    | some alg => if isRoundsSegment x then withRounds alg x (generate 16) else checkSalt alg 5000 false x
    | none => .error .unsupportedAlgorithm
  | [a, x, y] => match parseAlgorithm a with
    | some alg => if isRoundsSegment x then withRounds alg x y else .error .invalidSaltString
    | none => .error .unsupportedAlgorithm
  | _ => .error .invalidSaltString

/-- The decimal digits of a number without leading zeros, with fuel (R365). -/
def decimalDigitsFrom : Nat → Nat → Bytes
  | 0, _ => []
  | fuel + 1, n =>
    if n < 10 then [BitVec.ofNat 8 (0x30 + n)]
    else decimalDigitsFrom fuel (n / 10) ++ [BitVec.ofNat 8 (0x30 + n % 10)]

/-- The decimal digits of a number without leading zeros (R365). -/
def decimalDigits (n : Nat) : Bytes := decimalDigitsFrom (n + 1) n

/-- The rounds clause is present iff a rounds segment was recognised or the rounds differ from 5000 (R366). -/
def Parameters.hasRoundsClause (p : Parameters) : Bool := p.explicit || p.rounds != 5000

/-- The MCF prefix that the output carries (R92, R365). -/
def Parameters.outputPrefix (p : Parameters) : Bytes :=
  dollar :: BitVec.ofNat 8 (0x30 + p.alg.toNat)
    :: ((if p.hasRoundsClause then dollar :: (roundsMark ++ decimalDigits p.rounds) else []) ++ dollar :: p.salt)

/-- The job of parameters and a password (R350, R363). -/
def Parameters.job (p : Parameters) (pw : Bytes) : Job := ⟨p.alg, p.rounds, p.salt, pw⟩

/-- The MCF string of R365: the prefix, `$`, the text that the block encoded. -/
def Parameters.mcfString (p : Parameters) (text : Bytes) : Bytes :=
  p.outputPrefix ++ dollar :: text

/-- What the host software is built with. -/
structure HostSide where
  /-- The salt generator (R372; log entry 20). -/
  generate : Nat → Bytes
  /-- The algorithm when the caller gives no prefix, which the spec leaves to the host (93_implementation_defined.md U23; log
  entry 25). -/
  defaultAlg : Byte
  /-- `PW_MAX` of the block that the host uses (log entry 1). -/
  pwMax : Nat

/-- The second argument of `hash`, `mcfPrefixOrDefault` (R363). -/
inductive Source where
  | mcf (text : Bytes)
  | default
  deriving DecidableEq, Repr

/-- The parameters of a call: parsed, or the fresh default of 5000 rounds and a generated salt of 16 bytes (R350). -/
def HostSide.parameters (h : HostSide) : Source → Parsed
  | .mcf text => parse h.generate text
  | .default => checkSalt h.defaultAlg 5000 false (h.generate 16)

/-- Why `hash` and `verify` abort (R361, R367; 60_exceptions.md R402). -/
inductive HashError where
  /-- The parser's error: no job was started. -/
  | parser (e : ParseError)
  /-- The job ended in ERROR with this code (R394, R395). -/
  | engine (code : Byte)
  /-- The block has not answered; no call gets this (`JobResult.unanswered`). -/
  | unanswered
  deriving DecidableEq, Repr

/-- What `hash` answers. -/
inductive Hashed where
  | ok (mcf : Bytes)
  | error (e : HashError)
  deriving DecidableEq, Repr

/-- `hash(password, mcfPrefixOrDefault)`: the parser, the job protocol of R337 on the block, the assembly (R363). -/
def hashPassword (h : HostSide) (pw : Bytes) (source : Source) : Hashed :=
  match h.parameters source with
  | .error e => .error (.parser e)
  | .ok p =>
    match runJob h.pwMax (p.job pw) with
    | .done _ text => .ok (p.mcfString text)
    | .failed code => .error (.engine code)
    | .unanswered => .error .unanswered

/-- The comparison of R368: equal lengths, and the OR over all positions of the XOR of the bytes is 0; every position is
visited. Unequal lengths: false (92_eei_decisions.md D29). -/
def sameBytes (x y : Bytes) : Bool :=
  x.length == y.length && ((x.zip y).foldl (fun acc (p : Byte × Byte) => acc ||| (p.1 ^^^ p.2)) (0 : Byte)) == 0

/-- Everything before the last `$` (R367); empty when there is none (log entry 19). -/
def beforeLastDollar : Bytes → Bytes
  | [] => []
  | c :: cs => if cs.contains dollar then c :: beforeLastDollar cs else []

/-- What `verify` answers: a boolean, or the error of the parser or of the block. -/
inductive Verified where
  | ok (equal : Bool)
  | error (e : HashError)
  deriving DecidableEq, Repr

/-- `verify(password, storedHash)`: hash with the prefix of the stored string and compare the two strings (R367). -/
def verifyPassword (h : HostSide) (pw stored : Bytes) : Verified :=
  match hashPassword h pw (.mcf (beforeLastDollar stored)) with
  | .ok mcf => .ok (sameBytes mcf stored)
  | .error e => .error e

end Sys2Proof.Machine
end

