-- ==== Sys2Proof/Machine/Microprogram.lean ====
section
/-! DEFINITION. The microprogram as the table of 30_encoding.md R104 prints it: what each phase issues, how it writes the
counters, and its successor. The phases' meanings follow the phase rules (R200 to R219, R252 to R257, R294); that both agree
is a statement. -/
namespace Sys2Proof.Machine

/-- The micro-operation that the phase in `PH` issues; a terminal phase issues none (R104, R105). -/
def issuedBy (s : State) : Option Instr :=
  match s.ph with
  | .idle | .done | .err => none
  | .chk => some .chk
  | .b0 | .a0 | .dp0 | .ds0 => some .hnew
  | .b1 | .b3 | .a1 => some .hupdPw
  | .b2 | .a2 => some .hupdSalt
  | .b4 => some .hfinB
  | .a3 => some (if s.cge then .hupdB else .hupdn)
  | .a4 => some (if s.cz then .nop else if s.cb then .hupdB else .hupdPw)
  | .a5 | .r5 => some .hfinC
  | .dp1 => some (if s.cz then .nop else .hupdPw)
  | .dp2 | .ds2 => some .hfinT
  | .p0 => some .fillP
  | .ds1 => some (if s.cz then .nop else .hupdSalt)
  | .s0 => some .fillS
  | .rt => some (if s.last then .nop else .hnew)
  | .r1 => some (if s.odd then .hupdP else .hupdC)
  | .r2 => some (if s.sen then .hupdS else .nop)
  | .r3 => some (if s.pen then .hupdP else .nop)
  | .r4 => some (if s.odd then .hupdC else .hupdP)
  | .e0 => some (if s.groupIsFull then .encg4 else if s.alg = 5 then .encg3 else .encg2)

/-- `CNT` after the step of the phase in `PH` (R104). -/
def nextCnt (s : State) : Word32 :=
  match s.ph with
  | .a2 | .dp0 => s.plen
  | .a3 => if s.cge then s.cnt - BitVec.ofNat 32 s.dsz else s.plen
  | .a4 => if s.cz then s.cnt else s.cnt >>> 1
  | .dp1 | .ds1 => if s.cz then s.cnt else s.cnt - 1
  | .ds0 => 16 + (s.bufC.read 0).setWidth 32
  | _ => s.cnt

/-- `I` after the step (R104); the sum is modulo 2^32 (log entry 30). -/
def nextI (s : State) : Word32 :=
  match s.ph with
  | .s0 => 0
  | .r5 => s.i + 1
  | _ => s.i

/-- `G` after the step (R104). -/
def nextG (s : State) : BitVec 5 :=
  match s.ph with
  | .e0 => if s.groupIsFull then s.g + 1 else s.g
  | _ => s.g

/-- The successor of the phase in `PH`, for a phase that raises no error (R104). -/
def nextPhase (s : State) : Phase :=
  match s.ph with
  | .idle => .idle
  | .chk => .b0
  | .b0 => .b1
  | .b1 => .b2
  | .b2 => .b3
  | .b3 => .b4
  | .b4 => .a0
  | .a0 => .a1
  | .a1 => .a2
  | .a2 => .a3
  | .a3 => if s.cge then .a3 else .a4
  | .a4 => if s.cz then .a5 else .a4
  | .a5 => .dp0
  | .dp0 => .dp1
  | .dp1 => if s.cz then .dp2 else .dp1
  | .dp2 => .p0
  | .p0 => .ds0
  | .ds0 => .ds1
  | .ds1 => if s.cz then .ds2 else .ds1
  | .ds2 => .s0
  | .s0 => .rt
  | .rt => if s.last then .e0 else .r1
  | .r1 => .r2
  | .r2 => .r3
  | .r3 => .r4
  | .r4 => .r5
  | .r5 => .rt
  | .e0 => if s.groupIsFull then .e0 else .done
  | .done => .done
  | .err => .err

/-- The round type whose code is `RTYPE` (R107). -/
def roundInstr (rtype : BitVec 3) : Instr :=
  decodeRT rtype

end Sys2Proof.Machine
end

