-- ==== Sys2Proof/Safety.lean ====
section
/-! DEFINITION. What the rules say of every state of a machine that was reset and is driven through the host port: the
invariant `Inv`, in the terms the statements use. -/
namespace Sys2Proof.Machine

/-- The phases in which the hash context is open: after an HNEW and before its HFIN (40_hash_port.md R143). -/
def contextOpenIn : Phase → Bool
  | .b1 | .b2 | .b3 | .b4 | .a1 | .a2 | .a3 | .a4 | .a5 | .dp1 | .dp2 | .ds1 | .ds2 | .r1 | .r2 | .r3 | .r4 | .r5 => true
  | _ => false

/-- The phases of a job that has passed CHK and is not finished. -/
def runningIn : Phase → Bool
  | .idle | .chk | .done | .err => false
  | _ => true

/-- The phases of an open round: RT has found `I ≠ ROUNDS` (43_round_loop.md R252, R262). -/
def insideRound : Phase → Bool
  | .r1 | .r2 | .r3 | .r4 | .r5 => true
  | _ => false

/-- The turns that a machine with a host can see: sequencer steps, port accesses, polls, reset (00_scope.md R9, R10). -/
def Turn.external : Turn → Bool
  | .word .ha w => Nat.blt w (2 ^ 69)
  | .word _ _ => false
  | .seq | .poll | .reset => true

/-- What holds in every state of a machine that was reset and is driven through the host port. -/
structure Inv (s : State) : Prop where
  /-- Every buffer has its size and its canonical form (10_state.md R20, 20_memory.md R61). -/
  buffers : ∀ x, (s.buf x).wf (s.bufSize x) = true
  /-- 00_scope.md R7. -/
  pwMax_le : s.pwMax ≤ 2 ^ 30
  /-- 40_hash_port.md R143. -/
  context : s.hctx.isOpen = contextOpenIn s.ph
  /-- R145; 10_state.md R45. -/
  closed_empty : s.hctx.isOpen = false → s.hctx.msg = []
  /-- CHK has passed (42_digest_setup.md R227) and the job registers are frozen (45_host_commands.md R325). -/
  job : runningIn s.ph = true → jobError s = none
  /-- `ERR` is a code of 30_encoding.md R97, and 0 exactly outside ERROR (10_state.md R29). -/
  err_range : s.err.toNat ≤ 3
  err_iff : s.err = 0 ↔ s.ph ≠ .err
  /-- `CNT` in the loops that count it down (10_state.md R40, 42_digest_setup.md R225). -/
  cnt_plen : s.ph = .a3 ∨ s.ph = .a4 ∨ s.ph = .dp1 → s.cnt.toNat ≤ s.plen.toNat
  cnt_salt : s.ph = .ds1 → s.cnt.toNat ≤ 271
  /-- `I` never passes `ROUNDS` (43_round_loop.md R262). -/
  round_test : s.ph = .rt → s.i.toNat ≤ s.rounds.toNat
  round_open : insideRound s.ph = true → s.i.toNat < s.rounds.toNat
  round_end : s.ph = .e0 → s.i = s.rounds
  /-- `G` is 0 until the encoder runs and a group number while it runs (10_state.md R42). -/
  group_zero : runningIn s.ph = true → s.ph ≠ .e0 → s.g = 0
  group_lt : s.ph = .e0 → s.g.toNat < groupCount s.alg
  /-- Nothing but the encoder writes `ENC` in a job (R31, 44_mcf_encoder.md R297). -/
  text : s.ph ≠ .chk → s.ph ≠ .e0 → s.ph ≠ .done → s.enc = []
  /-- The internal state is clear in IDLE, in ERROR and when hashing begins (R48, R49; 60_exceptions.md R400). -/
  quiet : s.ph = .idle ∨ s.ph = .err ∨ s.ph = .b0 → clearInternal s = s
  /-- Only the agents of the hardware move (00_scope.md R9). -/
  agenda : s.agenda.all Turn.external = true

/-- `after` is `before` with the bytes `v` written from offset `off` on: every byte of the range is the byte written, every
other byte reads as before. -/
def WrittenAt (before after : Memory) (off : Nat) (v : Bytes) : Prop :=
  ∀ k, after.read k = if off ≤ k ∧ k < off + v.length then v.getD (k - off) 0 else before.read k

/-- The instruction carries the command with this code: the command itself, or a write to `CTRL` whose low byte is the code
(30_encoding.md R95; 45_host_commands.md R330). -/
def CarriesCommand (i : Instr) (code : Byte) : Prop :=
  (i = .start ∧ code = 0x01) ∨ (i = .clear ∧ code = 0x02) ∨ i = .cmdReserved code ∨
    ∃ idx v : Word32, i = .wr .ctrl idx v ∧ v.toNat % 256 = code.toNat

/-- The first `n` characters of a group word, as the arithmetic of 44_mcf_encoder.md R290: character `j` is
`ALPHA[⌊w / 64^j⌋ mod 64]`. -/
def groupText (w n : Nat) : Bytes :=
  (List.range n).map fun j => alpha.getD (w / 64 ^ j % 64) 0

/-- The step goes on: neither a fault nor a refusal. -/
def GoesOn (s : State) : Prop := ∃ t, step s = .next t

end Sys2Proof.Machine
end

