-- ==== Sys2Proof/Certificates/Slice0/Obligations.lean ====
section
/-! DEFINITION. The statements for the provers. Each names the rules of spec/ it formalises; the ones about every state hold
in states that no run reaches, unless a hypothesis says otherwise. -/

open Sys2Proof Sys2Proof.Machine

/-! ## Encoding and fetch -/

/-- Every well-formed instruction is read back from its encoding. The place of the fields in a port word is the model's choice
(log entry 10). -/
def Obligations.DecodeReadsEveryEncoding : Prop :=
  ∀ i : Instr, i.wf = true → decode i.format i.word = .instr i

/-- A word that decodes is the encoding of what it decodes to; of a port read the reply field alone is no operand (log entry
21). The bit positions of `dir` and `data` in a port word are the model's choice (log entry 10). -/
def Obligations.EncodingIsTheDecodedWord : Prop :=
  ∀ (f : Format) (w : Nat) (i : Instr), decode f w = .instr i →
    i.wf = true ∧ i.format = f ∧ (i.word = w ∨ (f = .ha ∧ w % 2 = 0 ∧ i.word = w % 2 ^ 37))

/-- R101, R102, R103, R39: outside the 18 bytes of the map no byte is a micro-operation, outside the 30 codes no code is a
phase, and presenting such a word is a refusal. That words of these formats can be presented at all is the model's device (log
entry 8); R39 calls an unused code of `PH` stuck or unrepresentable, and the model has it unrepresentable (log entry 17). -/
def Obligations.ReservedEncodingsAreRefused : Prop :=
  (∀ w < 256, w ∉ [0x00, 0x01, 0x10, 0x20, 0x21, 0x22, 0x23, 0x24, 0x25, 0x2A, 0x32, 0x35, 0x36, 0x43, 0x44] →
    decode .u w = .illegal (.reservedMicroOp (BitVec.ofNat 8 w))) ∧
  (∀ w < 256, w ∉ [0x52, 0x53, 0x54] → decode .ue w = .illegal (.reservedMicroOp (BitVec.ofNat 8 w))) ∧
  (∀ w < 64, 0x1E ≤ w → decode .phase w = .illegal (.unusedPhase (BitVec.ofNat 6 w))) ∧
  ∀ (s : State) (f : Format) (w : Nat) (rest : List Turn) (why : Illegal), s.agenda = .word f w :: rest →
    decode f w = .illegal why → step s = .refused (.illegalEncoding why)

/-- Words written out from R101, R95, R107, R104 and R93 decode to the instructions they stand for. Where the fields stand in
the port word of R93 is the model's choice (log entry 10). -/
def Obligations.SampleWordsDecode : Prop :=
  decode .u 0b00100101 = .instr .hupdC ∧ decode .u 0b00101010 = .instr .hupdn ∧ decode .u 0b00110110 = .instr .hfinT ∧
  decode .ue 0b01010100 = .instr .encg4 ∧ decode .cmd 0x02 = .instr .clear ∧
  decode .cmd 0x7F = .instr (.cmdReserved 0x7F) ∧ decode .rt 0b110 = .instr .rndPsc ∧
  decode .phase 0x1B = .instr .phE0 ∧
  decode .ha (1 + 0x8 * 2 + 9 * 2 ^ 5 + 0x67 * 2 ^ 37) = .instr (.wr .salt 9 0x67)

/-- A step runs the instruction that the fetched word decodes to, in the state with the turn taken; a reset turn is the
reset event. The turns are the model's choice (log entries 5 and 6). -/
def Obligations.StepRunsTheFetchedInstruction : Prop :=
  ∀ s : State,
    (∀ f w t i, fetch s = some ((f, w), t) → decode f w = .instr i → step s = exec i t) ∧
    (s.agenda = [] → fetch s = some ((.phase, s.ph.code.toNat), s)) ∧
    (∀ rest, s.agenda = .seq :: rest → fetch s = some ((.phase, s.ph.code.toNat), { s with agenda := rest })) ∧
    (∀ f w rest, s.agenda = .word f w :: rest → fetch s = some ((f, w), { s with agenda := rest })) ∧
    (∀ rest, s.agenda = .poll :: rest → s.busy = true → fetch s = some ((.phase, s.ph.code.toNat), s)) ∧
    (∀ rest, s.agenda = .poll :: rest → s.busy = false →
      fetch s = some ((.ha, (Instr.rd .status 0).word), { s with agenda := rest })) ∧
    (∀ rest, s.agenda = .reset :: rest → step s = .next (toReset { s with agenda := rest }))

/-- R37, R79: with no turn of the outside world the sequencer performs the phase in `PH`; a presented instruction runs. The
turns are the model's choice (log entries 5 and 6). -/
def Obligations.StepPerformsPhaseOrPresentedInstruction : Prop :=
  ∀ s : State,
    (s.agenda = [] → step s = exec (phaseInstr s.ph) s) ∧
    (∀ rest, s.agenda = .seq :: rest → step s = exec (phaseInstr s.ph) { s with agenda := rest }) ∧
    (∀ i rest, i.wf = true → s.agenda = .word i.format i.word :: rest → step s = exec i { s with agenda := rest }) ∧
    (∀ rest, s.agenda = .poll :: rest → s.busy = true → step s = exec (phaseInstr s.ph) s) ∧
    (∀ rest, s.agenda = .poll :: rest → s.busy = false → step s = exec (.rd .status 0) { s with agenda := rest })

/-- The word of an opcode-table row is fetched and run as the next instruction. How it is placed and in which format it is read
is the model's choice (log entries 7 to 9). -/
def Obligations.TableWordRunsNext : Prop :=
  ∀ (s : State) (nbits w : Nat) (i : Instr), decodeTableWord nbits w = some i →
    step (s.withFetchWord nbits w) = exec i s

/-! ## The hash port -/

/-- R132, R143: HNEW with a closed context opens an empty message, whatever `msg` held; with an open one it is refused (U13;
log entry 4). -/
def Obligations.HnewOpensAnEmptyMessage : Prop :=
  ∀ s : State,
    (s.hctx.isOpen = false → exec .hnew s = .next { s with hctx := ⟨true, []⟩ }) ∧
    (s.hctx.isOpen = true → exec .hnew s = .refused .contextOpen)

/-- R133 to R138: a feed appends the bytes of its buffer, index 0 first, and changes nothing else. -/
def Obligations.WholeFeedsAppendTheirBytes : Prop :=
  ∀ s : State, s.hctx.isOpen = true →
    (s.plen.toNat ≤ s.pwMax →
      exec .hupdPw s = .next { s with hctx := ⟨true, s.hctx.msg ++ (List.range s.plen.toNat).map s.pw.read⟩ } ∧
      exec .hupdP s = .next { s with hctx := ⟨true, s.hctx.msg ++ (List.range s.plen.toNat).map s.bufP.read⟩ }) ∧
    (s.slen.toNat ≤ 16 →
      exec .hupdSalt s = .next { s with hctx := ⟨true, s.hctx.msg ++ (List.range s.slen.toNat).map s.salt.read⟩ } ∧
      exec .hupdS s = .next { s with hctx := ⟨true, s.hctx.msg ++ (List.range s.slen.toNat).map s.bufS.read⟩ }) ∧
    exec .hupdB s = .next { s with hctx := ⟨true, s.hctx.msg ++ (List.range (digestSize s.alg)).map s.bufB.read⟩ } ∧
    exec .hupdC s = .next { s with hctx := ⟨true, s.hctx.msg ++ (List.range (digestSize s.alg)).map s.bufC.read⟩ }

/-- R139. -/
def Obligations.PartialFeedAppendsAPrefixOfB : Prop :=
  ∀ s : State, s.hctx.isOpen = true → s.cnt.toNat < digestSize s.alg →
    exec .hupdn s = .next { s with hctx := ⟨true, s.hctx.msg ++ (List.range s.cnt.toNat).map s.bufB.read⟩ }

/-- R143, R139: the `require` clauses are refusals: a feed or a finalise without an open context, a partial feed that is
not shorter than a digest. -/
def Obligations.HashPortRequiresAnOpenContext : Prop :=
  ∀ s : State,
    (s.hctx.isOpen = false → ∀ i ∈ [Instr.hupdPw, .hupdSalt, .hupdB, .hupdP, .hupdS, .hupdC, .hupdn, .hfinB, .hfinC, .hfinT],
      exec i s = .refused .contextClosed) ∧
    (s.hctx.isOpen = true → digestSize s.alg ≤ s.cnt.toNat → exec .hupdn s = .refused .partialFeedTooLong)

/-- R15, R61: a feed or fill whose length exceeds its buffer faults by name (the model's reading of the range condition of
`MemRead` and `MemWrite`, log entry 14). -/
def Obligations.LengthsBeyondABufferFault : Prop :=
  ∀ s : State,
    (s.pwMax < s.plen.toNat → exec .fillP s = .fault (.outsideBuffer .p) ∧
      (s.hctx.isOpen = true → exec .hupdPw s = .fault (.outsideBuffer .pw) ∧
        exec .hupdP s = .fault (.outsideBuffer .p))) ∧
    (16 < s.slen.toNat → exec .fillS s = .fault (.outsideBuffer .s) ∧
      (s.hctx.isOpen = true → exec .hupdSalt s = .fault (.outsideBuffer .salt) ∧
        exec .hupdS s = .fault (.outsideBuffer .s)))

/-- R140 to R142, R145: a finalise writes the digest of the message at offset 0 of its buffer, leaves the buffer's other
bytes, and empties and closes the context. -/
def Obligations.FinaliseWritesTheDigest : Prop :=
  ∀ s : State, s.hctx.isOpen = true →
    (∃ m, exec .hfinB s = .next { s with bufB := m, hctx := ⟨false, []⟩ } ∧
      WrittenAt s.bufB m 0 (hashBytes s.alg s.hctx.msg)) ∧
    (∃ m, exec .hfinC s = .next { s with bufC := m, hctx := ⟨false, []⟩ } ∧
      WrittenAt s.bufC m 0 (hashBytes s.alg s.hctx.msg)) ∧
    (∃ m, exec .hfinT s = .next { s with bufT := m, hctx := ⟨false, []⟩ } ∧
      WrittenAt s.bufT m 0 (hashBytes s.alg s.hctx.msg))

/-- R131: the digest of every message has `DSZ(ALG)` bytes, and R144: cutting a message into feeds does not matter. -/
def Obligations.DigestSizeAndCuttingOfMessages : Prop :=
  (∀ alg m, (hashBytes alg m).length = digestSize alg) ∧
  ∀ (s : State) (x y : Buf) (n k : Nat),
    appendBytes y k (appendBytes x n s) =
      { s with hctx := ⟨true, s.hctx.msg ++ ((s.buf x).readBytes 0 n ++ (s.buf y).readBytes 0 k)⟩ }

/-- R177: the check values of `H` for the message `abc`. -/
def Obligations.HashCheckValuesOfAbc : Prop :=
  natOfBytesBE (hashBytes 5 (ascii "abc")) = 0xba7816bf8f01cfea414140de5dae2223b00361a396177a9cb410ff61f20015ad ∧
  natOfBytesBE (hashBytes 6 (ascii "abc")) =
    0xddaf35a193617abacc417349ae20413112e6fa4e89a97ea20a9eeee64b55d39a2192992a274fc1a836ba3c23a3feebbd454d4423643ce80e2a9ac94fa54ca49f

/-! ## NOP, FILL, CHK and errors -/

/-- R226, R295, R415, R432: NOP and the three terminal phases change nothing (the stutter of a terminal phase is the model's
reading, log entry 11). -/
def Obligations.NopAndTerminalPhasesChangeNothing : Prop :=
  ∀ s : State, ∀ i ∈ [Instr.nop, .phIdle, .phDone, .phErr], exec i s = .next s

/-- R198, R199: a fill writes `T[k mod DSZ]` to byte `k` of its buffer, for every `k` below its length. -/
def Obligations.FillRepeatsTheDigestInT : Prop :=
  ∀ s : State,
    (s.plen.toNat ≤ s.pwMax → ∃ m, exec .fillP s = .next { s with bufP := m } ∧
      WrittenAt s.bufP m 0 ((List.range s.plen.toNat).map fun k => s.bufT.read (k % digestSize s.alg))) ∧
    (s.slen.toNat ≤ 16 → ∃ m, exec .fillS s = .next { s with bufS := m } ∧
      WrittenAt s.bufS m 0 ((List.range s.slen.toNat).map fun k => s.bufT.read (k % digestSize s.alg)))

/-- R227, R200, R49: on a job without an error CHK clears the internal state and nothing else; phase CHK goes on to B0. -/
def Obligations.ChkClearsTheInternalState : Prop :=
  ∀ s : State, (s.alg = 5 ∨ s.alg = 6) → s.slen.toNat ≤ 16 → s.plen.toNat ≤ s.pwMax →
    exec .chk s = .next { s with
      bufB := [], bufC := [], bufT := [], bufP := [], bufS := [], enc := [], hctx := ⟨false, []⟩, cnt := 0, i := 0, g := 0 } ∧
    exec .phChk s = .next { s with
      bufB := [], bufC := [], bufT := [], bufP := [], bufS := [], enc := [], hctx := ⟨false, []⟩, cnt := 0, i := 0, g := 0
      ph := .b0 }

/-- R394, R395, R398, R400: CHK tests the algorithm first and then the lengths, and the error is entered in the same step:
`ERR` gets the code, the internal state is cleared, `PH` becomes ERR, the job registers stay. -/
def Obligations.ChkRaisesTheErrorsInOrder : Prop :=
  ∀ s : State, ∀ i ∈ [Instr.chk, .phChk],
    (s.alg ≠ 5 → s.alg ≠ 6 → exec i s = .next { s with
      bufB := [], bufC := [], bufT := [], bufP := [], bufS := [], enc := [], hctx := ⟨false, []⟩, cnt := 0, i := 0, g := 0
      err := 0x01, ph := .err }) ∧
    ((s.alg = 5 ∨ s.alg = 6) → (16 < s.slen.toNat ∨ s.pwMax < s.plen.toNat) → exec i s = .next { s with
      bufB := [], bufC := [], bufT := [], bufP := [], bufS := [], enc := [], hctx := ⟨false, []⟩, cnt := 0, i := 0, g := 0
      err := 0x02, ph := .err })

/-- R394, R395, R398, R399, R400: each cause of an error enters ERROR, and then `STATUS` reads 3, `ERR` reads the code of that
cause (1 for an unsupported algorithm, 2 for a length that is too large, 3 for a reserved command, issued by itself or written
to `CTRL`), every byte of `DIGEST` and `ENC` reads 0, and the job registers and the salt read as before. -/
def Obligations.ErrorEntryAsTheHostSeesIt : Prop :=
  ∀ (s : State) (i : Instr) (code : Word32),
    (i ∈ [Instr.chk, .phChk] ∧ s.alg ≠ 5 ∧ s.alg ≠ 6 ∧ code = 1) ∨
    (i ∈ [Instr.chk, .phChk] ∧ (s.alg = 5 ∨ s.alg = 6) ∧ (16 < s.slen.toNat ∨ s.pwMax < s.plen.toNat) ∧ code = 2) ∨
    ((s.ph = .idle ∨ s.ph = .done ∨ s.ph = .err) ∧ code = 3 ∧ ∃ c : Byte, c ≠ 0x01 ∧ c ≠ 0x02 ∧
      (i = .cmdReserved c ∨ ∃ idx v : Word32, i = .wr .ctrl idx v ∧ v.toNat % 256 = c.toNat)) →
    ∃ t, exec i s = .next t ∧ hostReadValue .status 0 t = 3 ∧ hostReadValue .err 0 t = code ∧
      (∀ idx, hostReadValue .digest idx t = 0 ∧ hostReadValue .enc idx t = 0) ∧
      ∀ o ∈ [Obj.alg, .rounds, .slen, .plen, .salt], ∀ idx, hostReadValue o idx t = hostReadValue o idx s

/-- R406, R392: whatever runs, `ERR` keeps its value and neither ERR nor CHK is entered, but for START and CLEAR, which set
`ERR` to 0, and an error entry; and each of these has its own instructions: START and CLEAR the command or the write to `CTRL`
that carries it, an error entry CHK and phase CHK (codes 1 and 2) and the reserved commands (code 3). What is no instruction of
the encoding, a reserved command with the code of START or CLEAR, runs as that command in the model. -/
def Obligations.ErrChangesOnlyByStartClearOrErrorEntry : Prop :=
  ∀ (i : Instr) (s t : State), exec i s = .next t →
    (t.err = s.err ∧ (t.ph = .err → s.ph = .err) ∧ (t.ph = .chk → s.ph = .chk)) ∨
    (CarriesCommand i 0x01 ∧ s.busy = false ∧ t = { s with err := 0, ph := .chk }) ∨
    (CarriesCommand i 0x02 ∧ s.busy = false ∧
      t = { State.reset with pwMax := s.pwMax, agenda := s.agenda, replies := s.replies }) ∨
    (((i ∈ [Instr.chk, .phChk] ∧ t.err ∈ [0x01, 0x02]) ∨
        (s.busy = false ∧ t.err = 0x03 ∧ ∃ code : Byte, code ≠ 0x01 ∧ code ≠ 0x02 ∧ CarriesCommand i code)) ∧
      t.ph = .err ∧ ∀ x, x ≠ .pw → x ≠ .salt → t.buf x = [])

/-! ## The encoder -/

/-- R291: a full group writes four characters of its three bytes at offset `4·G`. That a group whose entries do not all exist is
refused is the model's choice, its reading of "issued only for `G < NGRP − 1`" (log entry 14). -/
def Obligations.FullGroupWritesFourCharacters : Prop :=
  ∀ s : State,
    (s.alg = 5 → s.g.toNat < 10 → ∃ m, exec .encg4 s = .next { s with enc := m } ∧
      WrittenAt s.enc m (4 * s.g.toNat) (groupText
        ((s.bufC.read (perm256.getD (3 * s.g.toNat) 0)).toNat + 256 * (s.bufC.read (perm256.getD (3 * s.g.toNat + 1) 0)).toNat
          + 65536 * (s.bufC.read (perm256.getD (3 * s.g.toNat + 2) 0)).toNat) 4)) ∧
    (s.alg = 6 → s.g.toNat < 21 → ∃ m, exec .encg4 s = .next { s with enc := m } ∧
      WrittenAt s.enc m (4 * s.g.toNat) (groupText
        ((s.bufC.read (perm512.getD (3 * s.g.toNat) 0)).toNat + 256 * (s.bufC.read (perm512.getD (3 * s.g.toNat + 1) 0)).toNat
          + 65536 * (s.bufC.read (perm512.getD (3 * s.g.toNat + 2) 0)).toNat) 4)) ∧
    (s.alg = 5 → 10 ≤ s.g.toNat → exec .encg4 s = .refused .groupNotFull) ∧
    (s.alg = 6 → 21 ≤ s.g.toNat → exec .encg4 s = .refused .groupNotFull)

/-- R292, R293: the last groups, with the missing bytes 0 (R286). That the offsets are the constants of the pseudocode in every
state, also where the rules do not issue the operation, is the model's choice (log entry 28). -/
def Obligations.LastGroupsWriteTheirCharacters : Prop :=
  ∀ s : State,
    (∃ m, exec .encg3 s = .next { s with enc := m } ∧
      WrittenAt s.enc m 40 (groupText ((s.bufC.read 30).toNat + 256 * (s.bufC.read 31).toNat) 3)) ∧
    (∃ m, exec .encg2 s = .next { s with enc := m } ∧
      WrittenAt s.enc m 84 (groupText (s.bufC.read 63).toNat 2))

/-- R289: the tables are permutations of the digest's bytes, of the digest's size, in `NGRP` = ⌈length / 3⌉ = 11 and 22
groups, the last of 2 and of 1 entries. -/
def Obligations.PermutationTablesUseEveryByteOnce : Prop :=
  perm256.Perm (List.range 32) ∧ perm512.Perm (List.range 64) ∧
  perm256.length = digestSize 5 ∧ perm512.length = digestSize 6 ∧
  groupCount 5 = (perm256.length + 2) / 3 ∧ groupCount 6 = (perm512.length + 2) / 3 ∧
  groupCount 5 = 11 ∧ groupCount 6 = 22 ∧
  perm256.length - 3 * (groupCount 5 - 1) = 2 ∧ perm512.length - 3 * (groupCount 6 - 1) = 1

/-- R281: `ALPHA` is the 64 characters `./0-9A-Za-z`, all different. -/
def Obligations.AlphabetIsDotSlashDigitsLetters : Prop :=
  alpha = ascii "./0123456789ABCDEFGHIJKLMNOPQRSTUVWXYZabcdefghijklmnopqrstuvwxyz" ∧ alpha.length = 64 ∧ alpha.Nodup

/-- R287, R371: the text of every digest has 43 or 86 characters, all of the alphabet. -/
def Obligations.EncodedTextLengthAndAlphabet : Prop :=
  ∀ d : Bytes, (encodeText 5 d).length = 43 ∧ (encodeText 6 d).length = 86 ∧
    (∀ c ∈ encodeText 5 d, c ∈ alpha) ∧ ∀ c ∈ encodeText 6 d, c ∈ alpha

/-- R288: different digests have different texts. -/
def Obligations.EncodedTextDeterminesTheDigest : Prop :=
  ∀ (alg : Byte) (d e : Bytes), (alg = 5 ∨ alg = 6) → d.length = digestSize alg → e.length = digestSize alg →
    encodeText alg d = encodeText alg e → d = e

/-! ## The host port -/

/-- R321, R327, R28, R30, R31, R69: what a read of each object returns; nothing of the block changes. That the value is put
into `replies` is the model's choice (log entry 16). -/
def Obligations.HostReadReturnsTheObject : Prop :=
  ∀ (s : State) (idx : Word32),
    (∀ o ∈ [Obj.ctrl, .pw, .reserved7, .reservedC, .reservedD, .reservedE, .reservedF],
      exec (.rd o idx) s = .next { s with replies := s.replies ++ [0] }) ∧
    exec (.rd .status idx) s = .next { s with replies := s.replies ++
      [if s.ph = .idle then 0 else if s.ph = .done then 2 else if s.ph = .err then 3 else 1] } ∧
    exec (.rd .err idx) s = .next { s with replies := s.replies ++ [s.err.setWidth 32] } ∧
    exec (.rd .alg idx) s = .next { s with replies := s.replies ++ [s.alg.setWidth 32] } ∧
    exec (.rd .rounds idx) s = .next { s with replies := s.replies ++ [s.rounds] } ∧
    exec (.rd .slen idx) s = .next { s with replies := s.replies ++ [s.slen.setWidth 32] } ∧
    exec (.rd .plen idx) s = .next { s with replies := s.replies ++ [s.plen] } ∧
    exec (.rd .salt idx) s = .next { s with replies := s.replies ++
      [if idx.toNat < 16 then (s.salt.read idx.toNat).setWidth 32 else 0] } ∧
    exec (.rd .digest idx) s = .next { s with replies := s.replies ++
      [if s.ph = .done ∧ idx.toNat < 64 then (s.bufC.read idx.toNat).setWidth 32 else 0] } ∧
    exec (.rd .enc idx) s = .next { s with replies := s.replies ++
      [if s.ph = .done ∧ idx.toNat < 86 then (s.enc.read idx.toNat).setWidth 32 else 0] }

/-- R322, R69: what a write to each object but `CTRL` does while `STATUS` is not BUSY. -/
def Obligations.HostWriteStoresTheValue : Prop :=
  ∀ (s : State) (idx v : Word32), s.busy = false →
    exec (.wr .alg idx v) s = .next { s with alg := v.setWidth 8 } ∧
    exec (.wr .slen idx v) s = .next { s with slen := v.setWidth 8 } ∧
    exec (.wr .rounds idx v) s = .next { s with rounds := v } ∧
    exec (.wr .plen idx v) s = .next { s with plen := v } ∧
    (idx.toNat < 16 → ∃ m, exec (.wr .salt idx v) s = .next { s with salt := m } ∧
      WrittenAt s.salt m idx.toNat [v.setWidth 8]) ∧
    (16 ≤ idx.toNat → exec (.wr .salt idx v) s = .next s) ∧
    (idx.toNat < s.pwMax → ∃ m, exec (.wr .pw idx v) s = .next { s with pw := m } ∧
      WrittenAt s.pw m idx.toNat [v.setWidth 8]) ∧
    (s.pwMax ≤ idx.toNat → exec (.wr .pw idx v) s = .next s) ∧
    ∀ o ∈ [Obj.status, .err, .digest, .enc, .reserved7, .reservedC, .reservedD, .reservedE, .reservedF],
      exec (.wr o idx v) s = .next s

/-- R325: while `STATUS` is BUSY every host write is ignored, whatever its object, and every command. -/
def Obligations.WritesWhileBusyAreIgnored : Prop :=
  ∀ s : State, s.ph ≠ .idle → s.ph ≠ .done → s.ph ≠ .err →
    (∀ o idx v, exec (.wr o idx v) s = .next s) ∧ exec .start s = .next s ∧ exec .clear s = .next s ∧
    ∀ code, exec (.cmdReserved code) s = .next s

/-- R331: START in IDLE, DONE and ERROR; the command and the write to `CTRL` that carries it. -/
def Obligations.StartBeginsAJob : Prop :=
  ∀ s : State, s.ph = .idle ∨ s.ph = .done ∨ s.ph = .err →
    exec .start s = .next { s with err := 0, ph := .chk } ∧
    ∀ idx v : Word32, v.toNat % 256 = 0x01 → exec (.wr .ctrl idx v) s = .next { s with err := 0, ph := .chk }

/-- R332, R48: CLEAR in IDLE, DONE and ERROR sets every piece of the block's state to its reset value. That `PW_MAX`, the
turns to come and the replies stay is the model's choice (log entry 22). -/
def Obligations.ClearSetsTheResetValues : Prop :=
  ∀ s : State, s.ph = .idle ∨ s.ph = .done ∨ s.ph = .err →
    ∀ t : State, t = {
      alg := 0, rounds := 5000, slen := 0, plen := 0, salt := [], pw := [], ph := .idle, err := 0, hctx := ⟨false, []⟩
      bufB := [], bufC := [], bufT := [], bufP := [], bufS := [], cnt := 0, i := 0, g := 0, enc := []
      pwMax := s.pwMax, agenda := s.agenda, replies := s.replies } →
    exec .clear s = .next t ∧ ∀ idx v : Word32, v.toNat % 256 = 0x02 → exec (.wr .ctrl idx v) s = .next t

/-- R333, R399, R400: a reserved command in IDLE, DONE and ERROR enters the error `BadCommand`. -/
def Obligations.ReservedCommandRaisesBadCommand : Prop :=
  ∀ (s : State) (code : Byte), s.ph = .idle ∨ s.ph = .done ∨ s.ph = .err → code ≠ 0x01 → code ≠ 0x02 →
    ∀ t : State, t = { s with
      bufB := [], bufC := [], bufT := [], bufP := [], bufS := [], enc := [], hctx := ⟨false, []⟩, cnt := 0, i := 0, g := 0
      err := 0x03, ph := .err } →
    exec (.cmdReserved code) s = .next t ∧
    ∀ idx v : Word32, v.toNat % 256 = code.toNat → exec (.wr .ctrl idx v) s = .next t

/-- R48, R430, R431: the state after reset, and the reset event from any state of any phase. That reset is a turn, and that
`PW_MAX`, the turns to come and the replies stay, is the model's choice (log entries 5 and 22). -/
def Obligations.ResetLeavesTheResetValues : Prop :=
  (∀ x, State.reset.buf x = []) ∧ State.reset.alg = 0 ∧ State.reset.rounds = 5000 ∧ State.reset.slen = 0 ∧
  State.reset.plen = 0 ∧ State.reset.ph = .idle ∧ State.reset.err = 0 ∧ State.reset.hctx = ⟨false, []⟩ ∧
  State.reset.cnt = 0 ∧ State.reset.i = 0 ∧ State.reset.g = 0 ∧
  ∀ (s : State) (rest : List Turn), s.agenda = .reset :: rest →
    step s = .next { State.reset with pwMax := s.pwMax, agenda := rest, replies := s.replies }

/-- R20: the job registers and job buffers are written by the host alone: no micro-operation, round type or phase changes
one, nor the parameter `PW_MAX`, the turns to come or the replies. -/
def Obligations.JobRegistersAreWrittenByTheHostAlone : Prop :=
  ∀ (i : Instr) (s t : State), i.format ≠ .ha → i.format ≠ .cmd → exec i s = .next t →
    t.alg = s.alg ∧ t.rounds = s.rounds ∧ t.slen = s.slen ∧ t.plen = s.plen ∧ t.salt = s.salt ∧ t.pw = s.pw ∧
    t.pwMax = s.pwMax ∧ t.agenda = s.agenda ∧ t.replies = s.replies

/-- R47: what the host can read is a function of `STATUS`, `ERR`, the job registers, and, in DONE, of `C` and `ENC`. -/
def Obligations.HostReadsDependOnVisibleStateOnly : Prop :=
  ∀ s t : State, s.status = t.status → s.err = t.err → s.alg = t.alg → s.rounds = t.rounds → s.slen = t.slen →
    s.plen = t.plen → (∀ k < 16, s.salt.read k = t.salt.read k) →
    (s.status = 2 → (∀ k < 64, s.bufC.read k = t.bufC.read k) ∧ ∀ k < 86, s.enc.read k = t.enc.read k) →
    ∀ o idx, hostReadValue o idx s = hostReadValue o idx t

/-! ## The phases -/

/-- R201, R206, R212, R216: the phases that open a context. `16 + C[0]` does not overflow. With a context open their HNEW is
refused (log entry 4). -/
def Obligations.OpeningPhases : Prop :=
  ∀ s : State,
    (s.hctx.isOpen = false →
      exec .phB0 s = .next { s with hctx := ⟨true, []⟩, ph := .b1 } ∧
      exec .phA0 s = .next { s with hctx := ⟨true, []⟩, ph := .a1 } ∧
      exec .phDp0 s = .next { s with hctx := ⟨true, []⟩, cnt := s.plen, ph := .dp1 } ∧
      ∃ n : Word32, n.toNat = 16 + (s.bufC.read 0).toNat ∧
        exec .phDs0 s = .next { s with hctx := ⟨true, []⟩, cnt := n, ph := .ds1 }) ∧
    (s.hctx.isOpen = true → ∀ i ∈ [Instr.phB0, .phA0, .phDp0, .phDs0], exec i s = .refused .contextOpen)

/-- R202 to R204, R207, R208: the phases that feed the password or the salt. -/
def Obligations.PasswordAndSaltFeedPhases : Prop :=
  ∀ s : State, s.hctx.isOpen = true →
    (s.plen.toNat ≤ s.pwMax → ∀ c, c = HashContext.mk true (s.hctx.msg ++ (List.range s.plen.toNat).map s.pw.read) →
      exec .phB1 s = .next { s with hctx := c, ph := .b2 } ∧ exec .phB3 s = .next { s with hctx := c, ph := .b4 } ∧
      exec .phA1 s = .next { s with hctx := c, ph := .a2 }) ∧
    (s.slen.toNat ≤ 16 → ∀ c, c = HashContext.mk true (s.hctx.msg ++ (List.range s.slen.toNat).map s.salt.read) →
      exec .phB2 s = .next { s with hctx := c, ph := .b3 } ∧
      exec .phA2 s = .next { s with hctx := c, cnt := s.plen, ph := .a3 })

/-- R205, R211, R214, R218, R257: the phases that finalise; R5 counts the round. That the count is modulo 2^32 where R262 has it
never computed is the model's choice (log entry 30). -/
def Obligations.FinalisingPhases : Prop :=
  ∀ s : State, s.hctx.isOpen = true → ∀ d, d = hashBytes s.alg s.hctx.msg →
    (∃ m, exec .phB4 s = .next { s with bufB := m, hctx := ⟨false, []⟩, ph := .a0 } ∧ WrittenAt s.bufB m 0 d) ∧
    (∃ m, exec .phA5 s = .next { s with bufC := m, hctx := ⟨false, []⟩, ph := .dp0 } ∧ WrittenAt s.bufC m 0 d) ∧
    (∃ m, exec .phDp2 s = .next { s with bufT := m, hctx := ⟨false, []⟩, ph := .p0 } ∧ WrittenAt s.bufT m 0 d) ∧
    (∃ m, exec .phDs2 s = .next { s with bufT := m, hctx := ⟨false, []⟩, ph := .s0 } ∧ WrittenAt s.bufT m 0 d) ∧
    (∃ m, exec .phR5 s = .next { s with bufC := m, hctx := ⟨false, []⟩, i := BitVec.ofNat 32 (s.i.toNat + 1), ph := .rt } ∧
      WrittenAt s.bufC m 0 d)

/-- R215, R219: the phases that build **P** and **S**. -/
def Obligations.FillPhases : Prop :=
  ∀ s : State,
    (s.plen.toNat ≤ s.pwMax → ∃ m, exec .phP0 s = .next { s with bufP := m, ph := .ds0 } ∧
      WrittenAt s.bufP m 0 ((List.range s.plen.toNat).map fun k => s.bufT.read (k % digestSize s.alg))) ∧
    (s.slen.toNat ≤ 16 → ∃ m, exec .phS0 s = .next { s with bufS := m, i := 0, ph := .rt } ∧
      WrittenAt s.bufS m 0 ((List.range s.slen.toNat).map fun k => s.bufT.read (k % digestSize s.alg)))

/-- R209, R210: the copies loop of step 3 and the bit loop of step 4. -/
def Obligations.CopyAndBitLoopPhases : Prop :=
  ∀ s : State, ∀ b, b = HashContext.mk true (s.hctx.msg ++ (List.range (digestSize s.alg)).map s.bufB.read) →
    (s.hctx.isOpen = true → digestSize s.alg ≤ s.cnt.toNat → exec .phA3 s = .next { s with
      hctx := b, cnt := BitVec.ofNat 32 (s.cnt.toNat - digestSize s.alg), ph := .a3 }) ∧
    (s.hctx.isOpen = true → s.cnt.toNat < digestSize s.alg → exec .phA3 s = .next { s with
      hctx := ⟨true, s.hctx.msg ++ (List.range s.cnt.toNat).map s.bufB.read⟩, cnt := s.plen, ph := .a4 }) ∧
    (s.cnt = 0 → exec .phA4 s = .next { s with ph := .a5 }) ∧
    (s.hctx.isOpen = true → s.cnt.toNat % 2 = 1 → exec .phA4 s = .next { s with
      hctx := b, cnt := BitVec.ofNat 32 (s.cnt.toNat / 2), ph := .a4 }) ∧
    (s.hctx.isOpen = true → s.cnt ≠ 0 → s.cnt.toNat % 2 = 0 → s.plen.toNat ≤ s.pwMax → exec .phA4 s = .next { s with
      hctx := ⟨true, s.hctx.msg ++ (List.range s.plen.toNat).map s.pw.read⟩
      cnt := BitVec.ofNat 32 (s.cnt.toNat / 2), ph := .a4 })

/-- R213, R217: the repetition loops of steps 6 and 8. -/
def Obligations.RepetitionLoopPhases : Prop :=
  ∀ s : State,
    (s.cnt = 0 → exec .phDp1 s = .next { s with ph := .dp2 } ∧ exec .phDs1 s = .next { s with ph := .ds2 }) ∧
    (s.hctx.isOpen = true → s.cnt ≠ 0 → s.plen.toNat ≤ s.pwMax → exec .phDp1 s = .next { s with
      hctx := ⟨true, s.hctx.msg ++ (List.range s.plen.toNat).map s.pw.read⟩
      cnt := BitVec.ofNat 32 (s.cnt.toNat - 1), ph := .dp1 }) ∧
    (s.hctx.isOpen = true → s.cnt ≠ 0 → s.slen.toNat ≤ 16 → exec .phDs1 s = .next { s with
      hctx := ⟨true, s.hctx.msg ++ (List.range s.slen.toNat).map s.salt.read⟩
      cnt := BitVec.ofNat 32 (s.cnt.toNat - 1), ph := .ds1 })

/-- R252 to R256: the round test and the four conditional feeds of a round. With a context open the HNEW of RT is refused (log
entry 4). -/
def Obligations.RoundPhases : Prop :=
  ∀ s : State, s.plen.toNat ≤ s.pwMax → s.slen.toNat ≤ 16 →
    ∀ c p q, c = HashContext.mk true (s.hctx.msg ++ (List.range (digestSize s.alg)).map s.bufC.read) →
    p = HashContext.mk true (s.hctx.msg ++ (List.range s.plen.toNat).map s.bufP.read) →
    q = HashContext.mk true (s.hctx.msg ++ (List.range s.slen.toNat).map s.bufS.read) →
    (s.i = s.rounds → exec .phRt s = .next { s with ph := .e0 }) ∧
    (s.i ≠ s.rounds → s.hctx.isOpen = false → exec .phRt s = .next { s with hctx := ⟨true, []⟩, ph := .r1 }) ∧
    (s.i ≠ s.rounds → s.hctx.isOpen = true → exec .phRt s = .refused .contextOpen) ∧
    (s.i.toNat % 3 = 0 → exec .phR2 s = .next { s with ph := .r3 }) ∧
    (s.i.toNat % 7 = 0 → exec .phR3 s = .next { s with ph := .r4 }) ∧
    (s.hctx.isOpen = true →
      (s.i.toNat % 2 = 1 → exec .phR1 s = .next { s with hctx := p, ph := .r2 } ∧
        exec .phR4 s = .next { s with hctx := c, ph := .r5 }) ∧
      (s.i.toNat % 2 = 0 → exec .phR1 s = .next { s with hctx := c, ph := .r2 } ∧
        exec .phR4 s = .next { s with hctx := p, ph := .r5 }) ∧
      (s.i.toNat % 3 ≠ 0 → exec .phR2 s = .next { s with hctx := q, ph := .r3 }) ∧
      (s.i.toNat % 7 ≠ 0 → exec .phR3 s = .next { s with hctx := p, ph := .r4 }))

/-- R294: the encoder phase, for both algorithms. The offsets of the last groups are the constants of R292 and R293 for every
`G` (log entry 28). -/
def Obligations.EncoderPhase : Prop :=
  ∀ s : State, ∀ w : List Nat → Nat,
    (w = fun perm => (s.bufC.read (perm.getD (3 * s.g.toNat) 0)).toNat
      + 256 * (s.bufC.read (perm.getD (3 * s.g.toNat + 1) 0)).toNat
      + 65536 * (s.bufC.read (perm.getD (3 * s.g.toNat + 2) 0)).toNat) →
    (s.alg = 5 → s.g.toNat < 10 → ∃ m, exec .phE0 s = .next { s with enc := m, g := BitVec.ofNat 5 (s.g.toNat + 1), ph := .e0 } ∧
      WrittenAt s.enc m (4 * s.g.toNat) (groupText (w perm256) 4)) ∧
    (s.alg = 6 → s.g.toNat < 21 → ∃ m, exec .phE0 s = .next { s with enc := m, g := BitVec.ofNat 5 (s.g.toNat + 1), ph := .e0 } ∧
      WrittenAt s.enc m (4 * s.g.toNat) (groupText (w perm512) 4)) ∧
    (s.alg = 5 → 10 ≤ s.g.toNat → ∃ m, exec .phE0 s = .next { s with enc := m, ph := .done } ∧
      WrittenAt s.enc m 40 (groupText ((s.bufC.read 30).toNat + 256 * (s.bufC.read 31).toNat) 3)) ∧
    (s.alg = 6 → 21 ≤ s.g.toNat → ∃ m, exec .phE0 s = .next { s with enc := m, ph := .done } ∧
      WrittenAt s.enc m 84 (groupText (s.bufC.read 63).toNat 2))

/-- R104, R105: a phase other than CHK is the micro-operation that the microprogram's table issues, then the counters and
the successor that the table gives (`I + 1` modulo 2^32, log entry 30). -/
def Obligations.PhasesFollowTheMicroprogram : Prop :=
  ∀ (s : State) (u : Instr), s.ph ≠ .chk → issuedBy s = some u →
    exec (phaseInstr s.ph) s = andThen (exec u s) fun t =>
      .next { t with cnt := nextCnt s, i := nextI s, g := nextG s, ph := nextPhase s }

/-! ## The rounds -/

/-- R241 to R248: each round type finalises its message into `C`, counts the round and goes on to RT. That the
expansion runs whatever `RTYPE` holds, and also with `I` = `ROUNDS`, is the model's choice (log entry 13). With a context open
its HNEW is refused (log entry 4). That the count of rounds is modulo 2^32 is the model's choice (log entry 30). -/
def Obligations.RoundTypesHashTheirMessages : Prop :=
  ∀ s : State, s.plen.toNat ≤ s.pwMax → s.slen.toNat ≤ 16 →
    ∀ c p q : Bytes, c = (List.range (digestSize s.alg)).map s.bufC.read → p = (List.range s.plen.toNat).map s.bufP.read →
    q = (List.range s.slen.toNat).map s.bufS.read →
    ∀ r ∈ [(Instr.rndCp, c ++ p), (.rndCpp, c ++ p ++ p), (.rndCsp, c ++ q ++ p), (.rndCspp, c ++ q ++ p ++ p),
        (.rndPc, p ++ c), (.rndPpc, p ++ p ++ c), (.rndPsc, p ++ q ++ c), (.rndPspc, p ++ q ++ p ++ c)],
      (s.hctx.isOpen = false → ∃ m, exec r.1 s = .next { s with
          bufC := m, hctx := ⟨false, []⟩, i := BitVec.ofNat 32 (s.i.toNat + 1), ph := .rt } ∧
        WrittenAt s.bufC m 0 (hashBytes s.alg r.2)) ∧
      (s.hctx.isOpen = true → exec r.1 s = .refused .contextOpen)

/-- R106, R107, R116: six sequencer steps from RT are the round type that `RTYPE` selects (with a context open both are refused,
log entry 4). That the round type is one step of the model is its choice (log entry 13). -/
def Obligations.SixStepsAreTheRoundType : Prop :=
  ∀ s : State, s.ph = .rt → s.agenda = [] → s.i ≠ s.rounds → jobError s = none →
    Sys2Proof.core.run 6 s = exec (roundInstr s.rtype) s

/-- R108: the round types repeat with period 42, in the order of the table. -/
def Obligations.RoundTypesHavePeriodFortyTwo : Prop :=
  ∀ s : State, s.rtype.toNat = [0, 7, 3, 5, 3, 7, 1, 6, 3, 5, 3, 7, 1, 7, 2, 5, 3, 7, 1, 7, 3, 4, 3, 7, 1, 7, 3, 5,
    2, 7, 1, 7, 3, 5, 3, 6, 1, 7, 3, 5, 3, 7].getD (s.i.toNat % 42) 0

/-! ## Invariants -/

/-- The invariant holds after reset. -/
def Obligations.InvHoldsAtReset : Prop := Inv State.reset

/-- Every step keeps the invariant: buffers of their sizes in canonical form, a context open exactly in the feeding phases,
an accepted job in every running phase, `ERR` a legal code that is 0 outside ERROR, counters in range, no text and no
internal value where the rules leave none. -/
def Obligations.EveryStepKeepsInv : Prop :=
  ∀ s t : State, Inv s → step s = .next t → Inv t

/-- R143, R334, R407: from every state that meets the invariant the step goes on: no fault and no refusal is reachable. -/
def Obligations.InvStatesGoOn : Prop :=
  ∀ s : State, Inv s → GoesOn s

/-! ## Jobs -/

/-- R228: the set-up phases compute the functions of R190 to R196, in the number of steps the rule gives (`Nat.size` is the
`L` of R191), and leave the job registers. -/
def Obligations.SetupComputesItsFunctions : Prop :=
  ∀ s : State, s.ph = .chk → s.agenda = [] → jobError s = none →
    ∃ t, Sys2Proof.core.run (20 + s.plen.toNat / digestSize s.alg + Nat.size s.plen.toNat + s.plen.toNat
        + (16 + (s.job.digestA.getD 0 0).toNat)) s = .next t ∧
      t.ph = .rt ∧ t.i = 0 ∧ t.hctx = ⟨false, []⟩ ∧ t.job = s.job ∧
      t.bufB.readBytes 0 (digestSize s.alg) = s.job.digestB ∧ t.bufC.readBytes 0 (digestSize s.alg) = s.job.digestA ∧
      t.bufT.readBytes 0 (digestSize s.alg) = s.job.digestDS ∧ t.bufP.readBytes 0 s.plen.toNat = s.job.seqP ∧
      t.bufS.readBytes 0 s.slen.toNat = s.job.seqS

/-- R250, R260, R265: the round loop takes `6·ROUNDS + 1` steps, leaves the chain's last digest in `C`, and changes nothing
but `C`, `I` and `PH`. -/
def Obligations.RoundLoopComputesTheChain : Prop :=
  ∀ s : State, s.ph = .rt → s.agenda = [] → s.i = 0 → s.hctx = ⟨false, []⟩ → jobError s = none →
    ∃ m, Sys2Proof.core.run (6 * s.rounds.toNat + 1) s = .next { s with bufC := m, i := s.rounds, ph := .e0 } ∧
      m.readBytes 0 (digestSize s.alg) = chainFrom s.alg (s.bufP.readBytes 0 s.plen.toNat)
        (s.bufS.readBytes 0 s.slen.toNat) (s.bufC.readBytes 0 (digestSize s.alg)) s.rounds.toNat ∧
      ∀ k, digestSize s.alg ≤ k → m.read k = s.bufC.read k

/-- R294, R288: the encoder phase, run `NGRP` times, leaves the text of the digest in `ENC` and 0 behind it. -/
def Obligations.EncoderWritesTheText : Prop :=
  ∀ s : State, s.ph = .e0 → s.agenda = [] → s.g = 0 → s.enc = [] → (s.alg = 5 ∨ s.alg = 6) →
    ∃ m, Sys2Proof.core.run (groupCount s.alg) s =
        .next { s with enc := m, g := BitVec.ofNat 5 (groupCount s.alg - 1), ph := .done } ∧
      m.readBytes 0 (textLength s.alg) = encodeText s.alg (s.bufC.readBytes 0 (digestSize s.alg)) ∧
      ∀ k, textLength s.alg ≤ k → m.read k = 0

/-- R445, R251, R288: a job that passes CHK is DONE after exactly `N` steps, and after no fewer, with its raw digest in `C`, its
text in `ENC`, and the job registers as they were. -/
def Obligations.JobReachesDoneWithItsDigestAndText : Prop :=
  ∀ s : State, s.ph = .chk → s.agenda = [] → jobError s = none →
    ∀ N, N = 37 + s.plen.toNat / digestSize s.alg + Nat.size s.plen.toNat + s.plen.toNat
        + (s.job.digestA.getD 0 0).toNat + 6 * s.rounds.toNat + groupCount s.alg →
    (∀ k < N, ∃ u, Sys2Proof.core.run k s = .next u ∧ u.ph ≠ .done) ∧
    ∃ t, Sys2Proof.core.run N s = .next t ∧ t.ph = .done ∧ t.job = s.job ∧ t.err = s.err ∧
      t.bufC.readBytes 0 (digestSize s.alg) = s.job.digest ∧
      t.enc.readBytes 0 (textLength s.alg) = encodeText s.alg s.job.digest ∧
      (∀ k, digestSize s.alg ≤ k → t.bufC.read k = 0) ∧ ∀ k, textLength s.alg ≤ k → t.enc.read k = 0

/-- R3, R49: the run of a job depends on the job alone: two machines that start the same job, whatever the previous jobs left
in their buffers and beyond the lengths, go through states that differ in the bytes left in `SALT` and `PW` beyond the lengths
and in the host's replies only, each of which stays as it was at the start. -/
def Obligations.JobRunsDependOnTheJobAlone : Prop :=
  ∀ s s' : State, s.ph = .chk → s'.ph = .chk → s.agenda = [] → s'.agenda = [] → s.pwMax = s'.pwMax → s.err = s'.err →
    s.alg = s'.alg → s.rounds = s'.rounds → s.slen = s'.slen → s.plen = s'.plen → s.job = s'.job →
    ∀ n t, Sys2Proof.core.run (n + 1) s = .next t →
      t.salt = s.salt ∧ t.pw = s.pw ∧ t.replies = s.replies ∧ t.job = s.job ∧
      ∃ t', Sys2Proof.core.run (n + 1) s' = .next t' ∧ t'.job = t.job ∧
        t' = { t with salt := s'.salt, pw := s'.pw, replies := s'.replies }

/-- R337: the protocol of a host that submits one job, waits, reads digest and text, and issues CLEAR: it gets the status
before, DONE, the job's digest and its text, and leaves the block as after reset. A job with an unsupported algorithm or, with a
supported one, a password longer than `PW_MAX` or a salt whose length is more than 16 in the 8 bits of `SLEN` ends in ERROR, and
the protocol with the read of `ERR` gets the status before, ERROR and the code. That a password too long for `PLEN` is such a
job, and what becomes of bytes and numbers beyond 32 bits, is the model's choice (log entry 29), and so are the order of the
writes and that both results are read, `DIGEST` first (log entry 31); the turns, the poll and the replies are the model's own
(log entries 5, 6 and 16). -/
def Obligations.HostProtocolReturnsDigestAndText : Prop :=
  ∀ (s : State) (j : Job), (s.ph = .idle ∨ s.ph = .done ∨ s.ph = .err) → s.pwMax ≤ 2 ^ 30 →
    (s.agenda = jobProtocol j → (j.alg = 5 ∨ j.alg = 6) → j.rounds < 2 ^ 32 → j.salt.length ≤ 16 → j.pw.length ≤ s.pwMax →
      ∃ n, Sys2Proof.core.run n s = .next { State.reset with
        pwMax := s.pwMax
        replies := s.replies ++ [s.status.setWidth 32, 2]
          ++ (j.digest ++ encodeText j.alg j.digest).map (BitVec.setWidth 32) }) ∧
    ∀ code : Word32, s.agenda = failedJobProtocol j →
      (j.alg ≠ 5 ∧ j.alg ≠ 6 ∧ code = 1) ∨
        ((j.alg = 5 ∨ j.alg = 6) ∧ (s.pwMax < j.pw.length ∨ 16 < j.salt.length % 256) ∧ code = 2) →
      ∃ n, Sys2Proof.core.run n s = .next { State.reset with
        pwMax := s.pwMax
        replies := s.replies ++ [s.status.setWidth 32, 3, code] }

/-! ## Host software -/

/-- R374: the worked parses and the prefixes of their outputs, with a generator that keeps the contract of R372. -/
def Obligations.WorkedParses : Prop :=
  ∀ gen : Nat → Bytes, (∀ n, (gen n).length = n ∧ ∀ c ∈ gen n, c ∈ alpha) →
    parse gen (ascii "$5$saltstring") = .ok ⟨5, 5000, ascii "saltstring", false⟩ ∧
    parse gen (ascii "$6$saltstring") = .ok ⟨6, 5000, ascii "saltstring", false⟩ ∧
    parse gen (ascii "$5$rounds=10$roundstoolow") = .ok ⟨5, 1000, ascii "roundstoolow", true⟩ ∧
    parse gen (ascii "$5$rounds=1000000000$roundstoohigh") = .ok ⟨5, 999999999, ascii "roundstoohigh", true⟩ ∧
    parse gen (ascii "$5$rounds=5000$saltstring") = .ok ⟨5, 5000, ascii "saltstring", true⟩ ∧
    parse gen (ascii "$6$abcdefghijklmnopqrstuvwxyz") = .ok ⟨6, 5000, ascii "abcdefghijklmnop", false⟩ ∧
    parse gen (ascii "$5$salt-string") = .error .invalidSaltString ∧
    parse gen (ascii "$5$abcdefghijklmnop-") = .ok ⟨5, 5000, ascii "abcdefghijklmnop", false⟩ ∧
    parse gen (ascii "$7$saltstring") = .error .unsupportedAlgorithm ∧
    parse gen (ascii "$5$a$b$c$d") = .error .invalidSaltString ∧
    parse gen (ascii "$") = .error .invalidSaltString ∧
    parse gen (ascii "$5") = .ok ⟨5, 5000, gen 16, false⟩ ∧
    parse gen (ascii "$5$rounds=2000") = .ok ⟨5, 2000, gen 16, true⟩ ∧
    (Parameters.mk 5 5000 (ascii "saltstring") false).outputPrefix = ascii "$5$saltstring" ∧
    (Parameters.mk 6 5000 (ascii "saltstring") false).outputPrefix = ascii "$6$saltstring" ∧
    (Parameters.mk 5 1000 (ascii "roundstoolow") true).outputPrefix = ascii "$5$rounds=1000$roundstoolow" ∧
    (Parameters.mk 5 999999999 (ascii "roundstoohigh") true).outputPrefix = ascii "$5$rounds=999999999$roundstoohigh" ∧
    (Parameters.mk 5 5000 (ascii "saltstring") true).outputPrefix = ascii "$5$rounds=5000$saltstring"

/-- R350, R356, R357, R360: whatever the prefix, parsed parameters keep the invariants: a supported algorithm, rounds
within the bounds, at most 16 salt bytes, all of the alphabet. -/
def Obligations.ParsedParametersKeepTheInvariants : Prop :=
  ∀ (gen : Nat → Bytes) (mcf : Bytes) (p : Parameters), parse gen mcf = .ok p →
    (p.alg = 5 ∨ p.alg = 6) ∧ 1000 ≤ p.rounds ∧ p.rounds ≤ 999999999 ∧ p.salt.length ≤ 16 ∧ ∀ c ∈ p.salt, c ∈ alpha

/-- R363, R365, R367 to R369, with R395 and R402: what `hash` and `verify` answer, the job being run on the block by the
protocol of R337. An error of the parser aborts both. Parameters of a supported algorithm and a password within `PW_MAX` give the
assembled string with the job's text, and, if the salt is not empty (the rule's own exception), the password verifies against it;
a password beyond `PW_MAX` aborts `hash` with `BadLength`, and a default algorithm that is unsupported with
`UnsupportedAlgorithm`. `verify` answers whether the re-hash is the stored string, or the error that aborted the re-hash. What
the parser answers to texts that D0 leaves open is the model's choice (log entry 19), and so is the error of a password too long
for `PLEN` (log entry 29). The default's algorithm, its error and the test of its salt are the model's choice (log entry 25), and so
is the order of the host's accesses (log entry 31). -/
def Obligations.HashVerifies : Prop :=
  ∀ (h : HostSide) (pw : Bytes), h.pwMax ≤ 2 ^ 30 →
    (∀ source e, h.parameters source = .error e → hashPassword h pw source = .error (.parser e)) ∧
    (∀ source p, h.parameters source = .ok p →
      ((p.alg = 5 ∨ p.alg = 6) → pw.length ≤ h.pwMax →
        ∃ m, m = p.outputPrefix ++ dollar :: encodeText p.alg (p.job pw).digest ∧ hashPassword h pw source = .ok m ∧
          (p.salt ≠ [] → verifyPassword h pw m = .ok true)) ∧
      ((p.alg = 5 ∨ p.alg = 6) → h.pwMax < pw.length → hashPassword h pw source = .error (.engine 0x02)) ∧
      (p.alg ≠ 5 → p.alg ≠ 6 → hashPassword h pw source = .error (.engine 0x01))) ∧
    ∀ stored, verifyPassword h pw stored =
      match hashPassword h pw (.mcf (beforeLastDollar stored)) with
      | .ok m => .ok (decide (m = stored))
      | .error e => .error e
end

