-- ==== Sys2Proof/Laws/Memory.lean ====
section
/-! SUPPORT. The laws of the buffers: reading after writing, the canonical form kept by every write, and equal contents
make equal buffers. -/
namespace Sys2Proof.Machine

@[simp] theorem Memory.read_nil (k : Nat) : Memory.read [] k = 0 := rfl

theorem Memory.read_cons (a : Nat) (v : Byte) (m : Memory) (k : Nat) :
    Memory.read ((a, v) :: m) k = if a = k then v else Memory.read m k := rfl

theorem Memory.read_erase (m : Memory) (k j : Nat) : (m.erase k).read j = if j = k then 0 else m.read j := by
  induction m with
  | nil => simp [Memory.erase]
  | cons cell m ih =>
    obtain ⟨a, v⟩ := cell
    rw [show Memory.erase ((a, v) :: m) k = if a ≠ k then (a, v) :: Memory.erase m k else Memory.erase m k by
      by_cases h : a = k <;> simp [Memory.erase, h]]
    by_cases hak : a = k
    · subst hak
      simp only [ne_eq, not_true_eq_false, if_false, ih, Memory.read_cons]
      by_cases h : j = a
      · simp [h]
      · simp [h, Ne.symm h]
    · simp only [ne_eq, hak, not_false_eq_true, if_true, Memory.read_cons, ih]
      by_cases h : a = j
      · subst h; simp [hak]
      · simp [h]

theorem Memory.read_place (m : Memory) (k j : Nat) (v : Byte) (hk : m.read k = 0 ∧ ∀ c ∈ m, c.1 ≠ k) :
    (m.place k v).read j = if j = k then v else m.read j := by
  induction m with
  | nil => simp [Memory.place, Memory.read_cons, eq_comm]
  | cons cell m ih =>
    obtain ⟨a, u⟩ := cell
    have ha : a ≠ k := hk.2 (a, u) (by simp)
    have hm : Memory.read m k = 0 ∧ ∀ c ∈ m, c.1 ≠ k :=
      ⟨by simpa [Memory.read_cons, ha] using hk.1, fun c hc => hk.2 c (by simp [hc])⟩
    by_cases h : k < a
    · simp only [Memory.place, h, if_true, Memory.read_cons]
      by_cases hj : j = k
      · simp [hj]
      · simp [hj, Ne.symm hj]
    · simp only [Memory.place, h, if_false, Memory.read_cons, ih hm]
      by_cases hj : a = j
      · subst hj; simp [ha]
      · simp [hj]

/-- Reading after a write: the byte written at its place, every other byte as before. -/
theorem Memory.read_write (m : Memory) (k j : Nat) (v : Byte) :
    (m.write k v).read j = if j = k then v else m.read j := by
  by_cases hv : v = 0
  · simp [Memory.write, hv, Memory.read_erase]
  · simp only [Memory.write, hv, if_false]
    rw [Memory.read_place _ _ _ _ ⟨by simp [Memory.read_erase], fun c hc => by simpa [Memory.erase] using (List.mem_filter.1 hc).2⟩]
    by_cases h : j = k <;> simp [h, Memory.read_erase]

/-- Reading after a write of several bytes: inside the range the bytes written, outside it as before. -/
theorem Memory.read_writeBytes (vs : Bytes) (m : Memory) (off j : Nat) :
    (m.writeBytes off vs).read j = if off ≤ j ∧ j < off + vs.length then vs.getD (j - off) 0 else m.read j := by
  induction vs generalizing m off with
  | nil => simp [Memory.writeBytes, show ¬ (off ≤ j ∧ j < off) by omega]
  | cons v vs ih =>
    simp only [Memory.writeBytes, ih, Memory.read_write, List.length_cons]
    by_cases h1 : j = off
    · subst h1; simp [show ¬ (j + 1 ≤ j) by omega]
    · by_cases h2 : off + 1 ≤ j ∧ j < off + 1 + vs.length
      · obtain ⟨d, rfl⟩ : ∃ d, j = off + 1 + d := ⟨j - (off + 1), by omega⟩
        simp [h2, show off ≤ off + 1 + d ∧ off + 1 + d < off + (vs.length + 1) by omega,
          show off + 1 + d - off = d + 1 by omega]
      · rw [if_neg h2, if_neg h1, if_neg (by omega)]

@[simp] theorem Memory.readBytes_length (m : Memory) (off n : Nat) : (m.readBytes off n).length = n := by
  simp [Memory.readBytes]

theorem Memory.readBytes_getD (m : Memory) (off n k : Nat) (h : k < n) : (m.readBytes off n).getD k 0 = m.read (off + k) := by
  simp [Memory.readBytes, List.getD_eq_getElem?_getD, h]

theorem Memory.readBytes_congr {m m' : Memory} {off n : Nat} (h : ∀ k, k < n → m.read (off + k) = m'.read (off + k)) :
    m.readBytes off n = m'.readBytes off n := by
  simp only [Memory.readBytes]
  exact List.map_congr_left fun k hk => h k (List.mem_range.1 hk)

/-- Reading back the bytes just written. -/
theorem Memory.readBytes_writeBytes (m : Memory) (vs : Bytes) :
    (m.writeBytes 0 vs).readBytes 0 vs.length = vs := by
  apply List.ext_getElem (by simp)
  intro k h1 h2
  simp [Memory.readBytes, Memory.read_writeBytes, h2]

/-! ## The canonical form -/

theorem Memory.wfFrom_cons (size lo a : Nat) (v : Byte) (m : Memory) :
    Memory.wfFrom size lo ((a, v) :: m) = true ↔ lo ≤ a ∧ a < size ∧ v ≠ 0 ∧ Memory.wfFrom size (a + 1) m = true := by
  simp [Memory.wfFrom, and_assoc]

theorem Memory.wfFrom_mono {size lo lo' : Nat} {m : Memory} (h : Memory.wfFrom size lo m = true) (hl : lo' ≤ lo) :
    Memory.wfFrom size lo' m = true := by
  cases m with
  | nil => rfl
  | cons cell m =>
    obtain ⟨a, v⟩ := cell
    rw [Memory.wfFrom_cons] at h ⊢
    exact ⟨by omega, h.2⟩

theorem Memory.wfFrom_erase {size lo : Nat} {m : Memory} (k : Nat) (h : Memory.wfFrom size lo m = true) :
    Memory.wfFrom size lo (m.erase k) = true := by
  induction m generalizing lo with
  | nil => rfl
  | cons cell m ih =>
    obtain ⟨a, v⟩ := cell
    rw [Memory.wfFrom_cons] at h
    by_cases hak : a = k
    · have : Memory.erase ((a, v) :: m) k = Memory.erase m k := by simp [Memory.erase, hak]
      rw [this]
      exact Memory.wfFrom_mono (ih h.2.2.2) (by omega)
    · have : Memory.erase ((a, v) :: m) k = (a, v) :: Memory.erase m k := by simp [Memory.erase, hak]
      rw [this, Memory.wfFrom_cons]
      exact ⟨h.1, h.2.1, h.2.2.1, ih h.2.2.2⟩

theorem Memory.wfFrom_place {size lo : Nat} {m : Memory} {k : Nat} {v : Byte} (h : Memory.wfFrom size lo m = true)
    (hne : ∀ c ∈ m, c.1 ≠ k) (hlo : lo ≤ k) (hk : k < size) (hv : v ≠ 0) : Memory.wfFrom size lo (m.place k v) = true := by
  induction m generalizing lo with
  | nil => rw [Memory.place, Memory.wfFrom_cons]; exact ⟨hlo, hk, hv, rfl⟩
  | cons cell m ih =>
    obtain ⟨a, u⟩ := cell
    rw [Memory.wfFrom_cons] at h
    have ha : a ≠ k := hne (a, u) (by simp)
    by_cases hka : k < a
    · simp only [Memory.place, hka, if_true]
      rw [Memory.wfFrom_cons, Memory.wfFrom_cons]
      exact ⟨hlo, hk, hv, by omega, h.2⟩
    · simp only [Memory.place, hka, if_false]
      rw [Memory.wfFrom_cons]
      exact ⟨h.1, h.2.1, h.2.2.1, ih h.2.2.2 (fun c hc => hne c (by simp [hc])) (by omega)⟩

/-- A write inside the buffer keeps its canonical form. -/
theorem Memory.wf_write {size : Nat} {m : Memory} {k : Nat} (v : Byte) (h : m.wf size = true) (hk : k < size) :
    (m.write k v).wf size = true := by
  unfold Memory.write Memory.wf at *
  by_cases hv : v = 0
  · simpa [hv] using Memory.wfFrom_erase k h
  · simp only [hv, if_false]
    exact Memory.wfFrom_place (Memory.wfFrom_erase k h) (fun c hc => by simpa [Memory.erase] using (List.mem_filter.1 hc).2)
      (by omega) hk hv

/-- A write of several bytes inside the buffer keeps its canonical form. -/
theorem Memory.wf_writeBytes {size : Nat} (vs : Bytes) {m : Memory} {off : Nat} (h : m.wf size = true)
    (hk : off + vs.length ≤ size) : (m.writeBytes off vs).wf size = true := by
  induction vs generalizing m off with
  | nil => exact h
  | cons v vs ih =>
    simp only [List.length_cons] at hk
    exact ih (Memory.wf_write v h (by omega)) (by omega)

@[simp] theorem Memory.wf_nil (size : Nat) : Memory.wf size [] = true := rfl

theorem Memory.read_of_wfFrom {size lo : Nat} {m : Memory} (h : Memory.wfFrom size lo m = true) (k : Nat) (hk : k < lo) :
    m.read k = 0 := by
  induction m generalizing lo with
  | nil => rfl
  | cons cell m ih =>
    obtain ⟨a, v⟩ := cell
    rw [Memory.wfFrom_cons] at h
    rw [Memory.read_cons, if_neg (by omega)]
    exact ih h.2.2.2 (by omega)

/-- A byte beyond the buffer's size reads 0. -/
theorem Memory.read_of_wf {size : Nat} {m : Memory} (h : m.wf size = true) (k : Nat) (hk : size ≤ k) : m.read k = 0 := by
  unfold Memory.wf at h
  generalize 0 = lo at h
  induction m generalizing lo with
  | nil => rfl
  | cons cell m ih =>
    obtain ⟨a, v⟩ := cell
    rw [Memory.wfFrom_cons] at h
    rw [Memory.read_cons, if_neg (by omega)]
    exact ih (a + 1) h.2.2.2

/-- Canonical buffers with the same bytes are equal. -/
theorem Memory.ext_of_wfFrom {size lo : Nat} {m m' : Memory} (h : Memory.wfFrom size lo m = true)
    (h' : Memory.wfFrom size lo m' = true) (heq : ∀ k, m.read k = m'.read k) : m = m' := by
  induction m generalizing lo m' with
  | nil =>
    cases m' with
    | nil => rfl
    | cons cell m' =>
      obtain ⟨a, v⟩ := cell
      rw [Memory.wfFrom_cons] at h'
      have := heq a
      simp [Memory.read_cons] at this
      exact absurd this.symm h'.2.2.1
  | cons cell m ih =>
    obtain ⟨a, v⟩ := cell
    rw [Memory.wfFrom_cons] at h
    cases m' with
    | nil =>
      have := heq a
      simp [Memory.read_cons] at this
      exact absurd this h.2.2.1
    | cons cell' m' =>
      obtain ⟨a', v'⟩ := cell'
      rw [Memory.wfFrom_cons] at h'
      have haa : a = a' := by
        rcases Nat.lt_trichotomy a a' with hlt | he | hgt
        · have h1 := heq a
          rw [Memory.read_cons, Memory.read_cons, if_pos rfl, if_neg (by omega),
            Memory.read_of_wfFrom h'.2.2.2 a (by omega)] at h1
          exact absurd h1 h.2.2.1
        · exact he
        · have h1 := heq a'
          rw [Memory.read_cons, Memory.read_cons, if_pos rfl, if_neg (by omega),
            Memory.read_of_wfFrom h.2.2.2 a' (by omega)] at h1
          exact absurd h1.symm h'.2.2.1
      subst haa
      have hvv : v = v' := by simpa [Memory.read_cons] using heq a
      subst hvv
      congr 1
      refine ih h.2.2.2 h'.2.2.2 fun k => ?_
      by_cases hk : a = k
      · subst hk
        rw [Memory.read_of_wfFrom h.2.2.2 a (by omega), Memory.read_of_wfFrom h'.2.2.2 a (by omega)]
      · simpa [Memory.read_cons, hk] using heq k

/-- Canonical buffers with the same bytes are equal. -/
theorem Memory.ext_of_wf {size : Nat} {m m' : Memory} (h : m.wf size = true) (h' : m'.wf size = true)
    (heq : ∀ k, m.read k = m'.read k) : m = m' :=
  Memory.ext_of_wfFrom h h' heq

end Sys2Proof.Machine
end

