-- ==== Sys2Proof/Laws/Sha2.lean ====
section
/-! SUPPORT. The size of a digest (40_hash_port.md R131). -/
namespace Sys2Proof.Machine

@[simp] theorem bytesBE_length (n v : Nat) : (bytesBE n v).length = n := by
  induction n with
  | zero => rfl
  | succ n ih => simp [bytesBE, ih]

theorem sha2_length {w : Nat} (p : Sha2 w) (m : Bytes) : (sha2 p m).length = 8 * (w / 8) := by
  simp [sha2, EightWords.toList]; omega

theorem digestSize_pos (alg : Byte) : 0 < digestSize alg := by
  unfold digestSize; split
  · decide
  · split
    · decide
    · omega

theorem digestSize_le (alg : Byte) : digestSize alg ≤ 64 := by
  unfold digestSize; split
  · decide
  · split
    · decide
    · have := (Config.openDigestSize alg).isLt; omega

/-- `H(alg, M)` has `DSZ(alg)` bytes. -/
@[simp] theorem hashBytes_length (alg : Byte) (m : Bytes) : (hashBytes alg m).length = digestSize alg := by
  unfold hashBytes
  split
  · rename_i h; simp [sha2_length, digestSize, h.1]
  · split
    · rename_i h; simp [sha2_length, digestSize, h.1]
    · simp

end Sys2Proof.Machine
end

