-- ==== Sys2Proof/Laws/State.lean ====
section
/-! SUPPORT. One lemma per field per update of the state: no later proof unfolds a record update. -/
namespace Sys2Proof.Machine

variable (s : State)

/-! ## `goto` -/

@[simp] theorem goto_alg (p : Phase) : (goto p s).alg = s.alg := rfl
@[simp] theorem goto_rounds (p : Phase) : (goto p s).rounds = s.rounds := rfl
@[simp] theorem goto_slen (p : Phase) : (goto p s).slen = s.slen := rfl
@[simp] theorem goto_plen (p : Phase) : (goto p s).plen = s.plen := rfl
@[simp] theorem goto_salt (p : Phase) : (goto p s).salt = s.salt := rfl
@[simp] theorem goto_pw (p : Phase) : (goto p s).pw = s.pw := rfl
@[simp] theorem goto_ph (p : Phase) : (goto p s).ph = p := rfl
@[simp] theorem goto_err (p : Phase) : (goto p s).err = s.err := rfl
@[simp] theorem goto_hctx (p : Phase) : (goto p s).hctx = s.hctx := rfl
@[simp] theorem goto_bufB (p : Phase) : (goto p s).bufB = s.bufB := rfl
@[simp] theorem goto_bufC (p : Phase) : (goto p s).bufC = s.bufC := rfl
@[simp] theorem goto_bufT (p : Phase) : (goto p s).bufT = s.bufT := rfl
@[simp] theorem goto_bufP (p : Phase) : (goto p s).bufP = s.bufP := rfl
@[simp] theorem goto_bufS (p : Phase) : (goto p s).bufS = s.bufS := rfl
@[simp] theorem goto_cnt (p : Phase) : (goto p s).cnt = s.cnt := rfl
@[simp] theorem goto_i (p : Phase) : (goto p s).i = s.i := rfl
@[simp] theorem goto_g (p : Phase) : (goto p s).g = s.g := rfl
@[simp] theorem goto_enc (p : Phase) : (goto p s).enc = s.enc := rfl
@[simp] theorem goto_pwMax (p : Phase) : (goto p s).pwMax = s.pwMax := rfl
@[simp] theorem goto_agenda (p : Phase) : (goto p s).agenda = s.agenda := rfl
@[simp] theorem goto_replies (p : Phase) : (goto p s).replies = s.replies := rfl

/-! ## `setCnt` -/

@[simp] theorem setCnt_alg (v : Word32) : (setCnt v s).alg = s.alg := rfl
@[simp] theorem setCnt_rounds (v : Word32) : (setCnt v s).rounds = s.rounds := rfl
@[simp] theorem setCnt_slen (v : Word32) : (setCnt v s).slen = s.slen := rfl
@[simp] theorem setCnt_plen (v : Word32) : (setCnt v s).plen = s.plen := rfl
@[simp] theorem setCnt_salt (v : Word32) : (setCnt v s).salt = s.salt := rfl
@[simp] theorem setCnt_pw (v : Word32) : (setCnt v s).pw = s.pw := rfl
@[simp] theorem setCnt_ph (v : Word32) : (setCnt v s).ph = s.ph := rfl
@[simp] theorem setCnt_err (v : Word32) : (setCnt v s).err = s.err := rfl
@[simp] theorem setCnt_hctx (v : Word32) : (setCnt v s).hctx = s.hctx := rfl
@[simp] theorem setCnt_bufB (v : Word32) : (setCnt v s).bufB = s.bufB := rfl
@[simp] theorem setCnt_bufC (v : Word32) : (setCnt v s).bufC = s.bufC := rfl
@[simp] theorem setCnt_bufT (v : Word32) : (setCnt v s).bufT = s.bufT := rfl
@[simp] theorem setCnt_bufP (v : Word32) : (setCnt v s).bufP = s.bufP := rfl
@[simp] theorem setCnt_bufS (v : Word32) : (setCnt v s).bufS = s.bufS := rfl
@[simp] theorem setCnt_cnt (v : Word32) : (setCnt v s).cnt = v := rfl
@[simp] theorem setCnt_i (v : Word32) : (setCnt v s).i = s.i := rfl
@[simp] theorem setCnt_g (v : Word32) : (setCnt v s).g = s.g := rfl
@[simp] theorem setCnt_enc (v : Word32) : (setCnt v s).enc = s.enc := rfl
@[simp] theorem setCnt_pwMax (v : Word32) : (setCnt v s).pwMax = s.pwMax := rfl
@[simp] theorem setCnt_agenda (v : Word32) : (setCnt v s).agenda = s.agenda := rfl
@[simp] theorem setCnt_replies (v : Word32) : (setCnt v s).replies = s.replies := rfl

/-! ## `setI` -/

@[simp] theorem setI_alg (v : Word32) : (setI v s).alg = s.alg := rfl
@[simp] theorem setI_rounds (v : Word32) : (setI v s).rounds = s.rounds := rfl
@[simp] theorem setI_slen (v : Word32) : (setI v s).slen = s.slen := rfl
@[simp] theorem setI_plen (v : Word32) : (setI v s).plen = s.plen := rfl
@[simp] theorem setI_salt (v : Word32) : (setI v s).salt = s.salt := rfl
@[simp] theorem setI_pw (v : Word32) : (setI v s).pw = s.pw := rfl
@[simp] theorem setI_ph (v : Word32) : (setI v s).ph = s.ph := rfl
@[simp] theorem setI_err (v : Word32) : (setI v s).err = s.err := rfl
@[simp] theorem setI_hctx (v : Word32) : (setI v s).hctx = s.hctx := rfl
@[simp] theorem setI_bufB (v : Word32) : (setI v s).bufB = s.bufB := rfl
@[simp] theorem setI_bufC (v : Word32) : (setI v s).bufC = s.bufC := rfl
@[simp] theorem setI_bufT (v : Word32) : (setI v s).bufT = s.bufT := rfl
@[simp] theorem setI_bufP (v : Word32) : (setI v s).bufP = s.bufP := rfl
@[simp] theorem setI_bufS (v : Word32) : (setI v s).bufS = s.bufS := rfl
@[simp] theorem setI_cnt (v : Word32) : (setI v s).cnt = s.cnt := rfl
@[simp] theorem setI_i (v : Word32) : (setI v s).i = v := rfl
@[simp] theorem setI_g (v : Word32) : (setI v s).g = s.g := rfl
@[simp] theorem setI_enc (v : Word32) : (setI v s).enc = s.enc := rfl
@[simp] theorem setI_pwMax (v : Word32) : (setI v s).pwMax = s.pwMax := rfl
@[simp] theorem setI_agenda (v : Word32) : (setI v s).agenda = s.agenda := rfl
@[simp] theorem setI_replies (v : Word32) : (setI v s).replies = s.replies := rfl

/-! ## `setG` -/

@[simp] theorem setG_alg (v : BitVec 5) : (setG v s).alg = s.alg := rfl
@[simp] theorem setG_rounds (v : BitVec 5) : (setG v s).rounds = s.rounds := rfl
@[simp] theorem setG_slen (v : BitVec 5) : (setG v s).slen = s.slen := rfl
@[simp] theorem setG_plen (v : BitVec 5) : (setG v s).plen = s.plen := rfl
@[simp] theorem setG_salt (v : BitVec 5) : (setG v s).salt = s.salt := rfl
@[simp] theorem setG_pw (v : BitVec 5) : (setG v s).pw = s.pw := rfl
@[simp] theorem setG_ph (v : BitVec 5) : (setG v s).ph = s.ph := rfl
@[simp] theorem setG_err (v : BitVec 5) : (setG v s).err = s.err := rfl
@[simp] theorem setG_hctx (v : BitVec 5) : (setG v s).hctx = s.hctx := rfl
@[simp] theorem setG_bufB (v : BitVec 5) : (setG v s).bufB = s.bufB := rfl
@[simp] theorem setG_bufC (v : BitVec 5) : (setG v s).bufC = s.bufC := rfl
@[simp] theorem setG_bufT (v : BitVec 5) : (setG v s).bufT = s.bufT := rfl
@[simp] theorem setG_bufP (v : BitVec 5) : (setG v s).bufP = s.bufP := rfl
@[simp] theorem setG_bufS (v : BitVec 5) : (setG v s).bufS = s.bufS := rfl
@[simp] theorem setG_cnt (v : BitVec 5) : (setG v s).cnt = s.cnt := rfl
@[simp] theorem setG_i (v : BitVec 5) : (setG v s).i = s.i := rfl
@[simp] theorem setG_g (v : BitVec 5) : (setG v s).g = v := rfl
@[simp] theorem setG_enc (v : BitVec 5) : (setG v s).enc = s.enc := rfl
@[simp] theorem setG_pwMax (v : BitVec 5) : (setG v s).pwMax = s.pwMax := rfl
@[simp] theorem setG_agenda (v : BitVec 5) : (setG v s).agenda = s.agenda := rfl
@[simp] theorem setG_replies (v : BitVec 5) : (setG v s).replies = s.replies := rfl

/-! ## `hashNew` -/

@[simp] theorem hashNew_alg : (hashNew s).alg = s.alg := rfl
@[simp] theorem hashNew_rounds : (hashNew s).rounds = s.rounds := rfl
@[simp] theorem hashNew_slen : (hashNew s).slen = s.slen := rfl
@[simp] theorem hashNew_plen : (hashNew s).plen = s.plen := rfl
@[simp] theorem hashNew_salt : (hashNew s).salt = s.salt := rfl
@[simp] theorem hashNew_pw : (hashNew s).pw = s.pw := rfl
@[simp] theorem hashNew_ph : (hashNew s).ph = s.ph := rfl
@[simp] theorem hashNew_err : (hashNew s).err = s.err := rfl
@[simp] theorem hashNew_hctx : (hashNew s).hctx = ⟨true, []⟩ := rfl
@[simp] theorem hashNew_bufB : (hashNew s).bufB = s.bufB := rfl
@[simp] theorem hashNew_bufC : (hashNew s).bufC = s.bufC := rfl
@[simp] theorem hashNew_bufT : (hashNew s).bufT = s.bufT := rfl
@[simp] theorem hashNew_bufP : (hashNew s).bufP = s.bufP := rfl
@[simp] theorem hashNew_bufS : (hashNew s).bufS = s.bufS := rfl
@[simp] theorem hashNew_cnt : (hashNew s).cnt = s.cnt := rfl
@[simp] theorem hashNew_i : (hashNew s).i = s.i := rfl
@[simp] theorem hashNew_g : (hashNew s).g = s.g := rfl
@[simp] theorem hashNew_enc : (hashNew s).enc = s.enc := rfl
@[simp] theorem hashNew_pwMax : (hashNew s).pwMax = s.pwMax := rfl
@[simp] theorem hashNew_agenda : (hashNew s).agenda = s.agenda := rfl
@[simp] theorem hashNew_replies : (hashNew s).replies = s.replies := rfl

/-! ## `appendBytes` -/

@[simp] theorem appendBytes_alg (x : Buf) (n : Nat) : (appendBytes x n s).alg = s.alg := rfl
@[simp] theorem appendBytes_rounds (x : Buf) (n : Nat) : (appendBytes x n s).rounds = s.rounds := rfl
@[simp] theorem appendBytes_slen (x : Buf) (n : Nat) : (appendBytes x n s).slen = s.slen := rfl
@[simp] theorem appendBytes_plen (x : Buf) (n : Nat) : (appendBytes x n s).plen = s.plen := rfl
@[simp] theorem appendBytes_salt (x : Buf) (n : Nat) : (appendBytes x n s).salt = s.salt := rfl
@[simp] theorem appendBytes_pw (x : Buf) (n : Nat) : (appendBytes x n s).pw = s.pw := rfl
@[simp] theorem appendBytes_ph (x : Buf) (n : Nat) : (appendBytes x n s).ph = s.ph := rfl
@[simp] theorem appendBytes_err (x : Buf) (n : Nat) : (appendBytes x n s).err = s.err := rfl
@[simp] theorem appendBytes_hctx (x : Buf) (n : Nat) : (appendBytes x n s).hctx = ⟨true, s.hctx.msg ++ (s.buf x).readBytes 0 n⟩ := rfl
@[simp] theorem appendBytes_bufB (x : Buf) (n : Nat) : (appendBytes x n s).bufB = s.bufB := rfl
@[simp] theorem appendBytes_bufC (x : Buf) (n : Nat) : (appendBytes x n s).bufC = s.bufC := rfl
@[simp] theorem appendBytes_bufT (x : Buf) (n : Nat) : (appendBytes x n s).bufT = s.bufT := rfl
@[simp] theorem appendBytes_bufP (x : Buf) (n : Nat) : (appendBytes x n s).bufP = s.bufP := rfl
@[simp] theorem appendBytes_bufS (x : Buf) (n : Nat) : (appendBytes x n s).bufS = s.bufS := rfl
@[simp] theorem appendBytes_cnt (x : Buf) (n : Nat) : (appendBytes x n s).cnt = s.cnt := rfl
@[simp] theorem appendBytes_i (x : Buf) (n : Nat) : (appendBytes x n s).i = s.i := rfl
@[simp] theorem appendBytes_g (x : Buf) (n : Nat) : (appendBytes x n s).g = s.g := rfl
@[simp] theorem appendBytes_enc (x : Buf) (n : Nat) : (appendBytes x n s).enc = s.enc := rfl
@[simp] theorem appendBytes_pwMax (x : Buf) (n : Nat) : (appendBytes x n s).pwMax = s.pwMax := rfl
@[simp] theorem appendBytes_agenda (x : Buf) (n : Nat) : (appendBytes x n s).agenda = s.agenda := rfl
@[simp] theorem appendBytes_replies (x : Buf) (n : Nat) : (appendBytes x n s).replies = s.replies := rfl

/-! ## `emitGroup` -/

@[simp] theorem emitGroup_alg (off n : Nat) (b0 b1 b2 : Byte) : (emitGroup off n b0 b1 b2 s).alg = s.alg := rfl
@[simp] theorem emitGroup_rounds (off n : Nat) (b0 b1 b2 : Byte) : (emitGroup off n b0 b1 b2 s).rounds = s.rounds := rfl
@[simp] theorem emitGroup_slen (off n : Nat) (b0 b1 b2 : Byte) : (emitGroup off n b0 b1 b2 s).slen = s.slen := rfl
@[simp] theorem emitGroup_plen (off n : Nat) (b0 b1 b2 : Byte) : (emitGroup off n b0 b1 b2 s).plen = s.plen := rfl
@[simp] theorem emitGroup_salt (off n : Nat) (b0 b1 b2 : Byte) : (emitGroup off n b0 b1 b2 s).salt = s.salt := rfl
@[simp] theorem emitGroup_pw (off n : Nat) (b0 b1 b2 : Byte) : (emitGroup off n b0 b1 b2 s).pw = s.pw := rfl
@[simp] theorem emitGroup_ph (off n : Nat) (b0 b1 b2 : Byte) : (emitGroup off n b0 b1 b2 s).ph = s.ph := rfl
@[simp] theorem emitGroup_err (off n : Nat) (b0 b1 b2 : Byte) : (emitGroup off n b0 b1 b2 s).err = s.err := rfl
@[simp] theorem emitGroup_hctx (off n : Nat) (b0 b1 b2 : Byte) : (emitGroup off n b0 b1 b2 s).hctx = s.hctx := rfl
@[simp] theorem emitGroup_bufB (off n : Nat) (b0 b1 b2 : Byte) : (emitGroup off n b0 b1 b2 s).bufB = s.bufB := rfl
@[simp] theorem emitGroup_bufC (off n : Nat) (b0 b1 b2 : Byte) : (emitGroup off n b0 b1 b2 s).bufC = s.bufC := rfl
@[simp] theorem emitGroup_bufT (off n : Nat) (b0 b1 b2 : Byte) : (emitGroup off n b0 b1 b2 s).bufT = s.bufT := rfl
@[simp] theorem emitGroup_bufP (off n : Nat) (b0 b1 b2 : Byte) : (emitGroup off n b0 b1 b2 s).bufP = s.bufP := rfl
@[simp] theorem emitGroup_bufS (off n : Nat) (b0 b1 b2 : Byte) : (emitGroup off n b0 b1 b2 s).bufS = s.bufS := rfl
@[simp] theorem emitGroup_cnt (off n : Nat) (b0 b1 b2 : Byte) : (emitGroup off n b0 b1 b2 s).cnt = s.cnt := rfl
@[simp] theorem emitGroup_i (off n : Nat) (b0 b1 b2 : Byte) : (emitGroup off n b0 b1 b2 s).i = s.i := rfl
@[simp] theorem emitGroup_g (off n : Nat) (b0 b1 b2 : Byte) : (emitGroup off n b0 b1 b2 s).g = s.g := rfl
@[simp] theorem emitGroup_enc (off n : Nat) (b0 b1 b2 : Byte) : (emitGroup off n b0 b1 b2 s).enc = s.enc.writeBytes off ((groupChars b0 b1 b2).take n) := rfl
@[simp] theorem emitGroup_pwMax (off n : Nat) (b0 b1 b2 : Byte) : (emitGroup off n b0 b1 b2 s).pwMax = s.pwMax := rfl
@[simp] theorem emitGroup_agenda (off n : Nat) (b0 b1 b2 : Byte) : (emitGroup off n b0 b1 b2 s).agenda = s.agenda := rfl
@[simp] theorem emitGroup_replies (off n : Nat) (b0 b1 b2 : Byte) : (emitGroup off n b0 b1 b2 s).replies = s.replies := rfl

/-! ## `clearInternal` -/

@[simp] theorem clearInternal_alg : (clearInternal s).alg = s.alg := rfl
@[simp] theorem clearInternal_rounds : (clearInternal s).rounds = s.rounds := rfl
@[simp] theorem clearInternal_slen : (clearInternal s).slen = s.slen := rfl
@[simp] theorem clearInternal_plen : (clearInternal s).plen = s.plen := rfl
@[simp] theorem clearInternal_salt : (clearInternal s).salt = s.salt := rfl
@[simp] theorem clearInternal_pw : (clearInternal s).pw = s.pw := rfl
@[simp] theorem clearInternal_ph : (clearInternal s).ph = s.ph := rfl
@[simp] theorem clearInternal_err : (clearInternal s).err = s.err := rfl
@[simp] theorem clearInternal_hctx : (clearInternal s).hctx = ⟨false, []⟩ := rfl
@[simp] theorem clearInternal_bufB : (clearInternal s).bufB = [] := rfl
@[simp] theorem clearInternal_bufC : (clearInternal s).bufC = [] := rfl
@[simp] theorem clearInternal_bufT : (clearInternal s).bufT = [] := rfl
@[simp] theorem clearInternal_bufP : (clearInternal s).bufP = [] := rfl
@[simp] theorem clearInternal_bufS : (clearInternal s).bufS = [] := rfl
@[simp] theorem clearInternal_cnt : (clearInternal s).cnt = 0 := rfl
@[simp] theorem clearInternal_i : (clearInternal s).i = 0 := rfl
@[simp] theorem clearInternal_g : (clearInternal s).g = 0 := rfl
@[simp] theorem clearInternal_enc : (clearInternal s).enc = [] := rfl
@[simp] theorem clearInternal_pwMax : (clearInternal s).pwMax = s.pwMax := rfl
@[simp] theorem clearInternal_agenda : (clearInternal s).agenda = s.agenda := rfl
@[simp] theorem clearInternal_replies : (clearInternal s).replies = s.replies := rfl

/-! ## `raiseError` -/

@[simp] theorem raiseError_alg (e : Byte) : (raiseError e s).alg = s.alg := rfl
@[simp] theorem raiseError_rounds (e : Byte) : (raiseError e s).rounds = s.rounds := rfl
@[simp] theorem raiseError_slen (e : Byte) : (raiseError e s).slen = s.slen := rfl
@[simp] theorem raiseError_plen (e : Byte) : (raiseError e s).plen = s.plen := rfl
@[simp] theorem raiseError_salt (e : Byte) : (raiseError e s).salt = s.salt := rfl
@[simp] theorem raiseError_pw (e : Byte) : (raiseError e s).pw = s.pw := rfl
@[simp] theorem raiseError_ph (e : Byte) : (raiseError e s).ph = .err := rfl
@[simp] theorem raiseError_err (e : Byte) : (raiseError e s).err = e := rfl
@[simp] theorem raiseError_hctx (e : Byte) : (raiseError e s).hctx = ⟨false, []⟩ := rfl
@[simp] theorem raiseError_bufB (e : Byte) : (raiseError e s).bufB = [] := rfl
@[simp] theorem raiseError_bufC (e : Byte) : (raiseError e s).bufC = [] := rfl
@[simp] theorem raiseError_bufT (e : Byte) : (raiseError e s).bufT = [] := rfl
@[simp] theorem raiseError_bufP (e : Byte) : (raiseError e s).bufP = [] := rfl
@[simp] theorem raiseError_bufS (e : Byte) : (raiseError e s).bufS = [] := rfl
@[simp] theorem raiseError_cnt (e : Byte) : (raiseError e s).cnt = 0 := rfl
@[simp] theorem raiseError_i (e : Byte) : (raiseError e s).i = 0 := rfl
@[simp] theorem raiseError_g (e : Byte) : (raiseError e s).g = 0 := rfl
@[simp] theorem raiseError_enc (e : Byte) : (raiseError e s).enc = [] := rfl
@[simp] theorem raiseError_pwMax (e : Byte) : (raiseError e s).pwMax = s.pwMax := rfl
@[simp] theorem raiseError_agenda (e : Byte) : (raiseError e s).agenda = s.agenda := rfl
@[simp] theorem raiseError_replies (e : Byte) : (raiseError e s).replies = s.replies := rfl

/-! ## `startJob` -/

@[simp] theorem startJob_alg : (startJob s).alg = s.alg := rfl
@[simp] theorem startJob_rounds : (startJob s).rounds = s.rounds := rfl
@[simp] theorem startJob_slen : (startJob s).slen = s.slen := rfl
@[simp] theorem startJob_plen : (startJob s).plen = s.plen := rfl
@[simp] theorem startJob_salt : (startJob s).salt = s.salt := rfl
@[simp] theorem startJob_pw : (startJob s).pw = s.pw := rfl
@[simp] theorem startJob_ph : (startJob s).ph = .chk := rfl
@[simp] theorem startJob_err : (startJob s).err = 0 := rfl
@[simp] theorem startJob_hctx : (startJob s).hctx = s.hctx := rfl
@[simp] theorem startJob_bufB : (startJob s).bufB = s.bufB := rfl
@[simp] theorem startJob_bufC : (startJob s).bufC = s.bufC := rfl
@[simp] theorem startJob_bufT : (startJob s).bufT = s.bufT := rfl
@[simp] theorem startJob_bufP : (startJob s).bufP = s.bufP := rfl
@[simp] theorem startJob_bufS : (startJob s).bufS = s.bufS := rfl
@[simp] theorem startJob_cnt : (startJob s).cnt = s.cnt := rfl
@[simp] theorem startJob_i : (startJob s).i = s.i := rfl
@[simp] theorem startJob_g : (startJob s).g = s.g := rfl
@[simp] theorem startJob_enc : (startJob s).enc = s.enc := rfl
@[simp] theorem startJob_pwMax : (startJob s).pwMax = s.pwMax := rfl
@[simp] theorem startJob_agenda : (startJob s).agenda = s.agenda := rfl
@[simp] theorem startJob_replies : (startJob s).replies = s.replies := rfl

/-! ## `toReset` -/

@[simp] theorem toReset_alg : (toReset s).alg = 0 := rfl
@[simp] theorem toReset_rounds : (toReset s).rounds = 5000 := rfl
@[simp] theorem toReset_slen : (toReset s).slen = 0 := rfl
@[simp] theorem toReset_plen : (toReset s).plen = 0 := rfl
@[simp] theorem toReset_salt : (toReset s).salt = [] := rfl
@[simp] theorem toReset_pw : (toReset s).pw = [] := rfl
@[simp] theorem toReset_ph : (toReset s).ph = .idle := rfl
@[simp] theorem toReset_err : (toReset s).err = 0 := rfl
@[simp] theorem toReset_hctx : (toReset s).hctx = ⟨false, []⟩ := rfl
@[simp] theorem toReset_bufB : (toReset s).bufB = [] := rfl
@[simp] theorem toReset_bufC : (toReset s).bufC = [] := rfl
@[simp] theorem toReset_bufT : (toReset s).bufT = [] := rfl
@[simp] theorem toReset_bufP : (toReset s).bufP = [] := rfl
@[simp] theorem toReset_bufS : (toReset s).bufS = [] := rfl
@[simp] theorem toReset_cnt : (toReset s).cnt = 0 := rfl
@[simp] theorem toReset_i : (toReset s).i = 0 := rfl
@[simp] theorem toReset_g : (toReset s).g = 0 := rfl
@[simp] theorem toReset_enc : (toReset s).enc = [] := rfl
@[simp] theorem toReset_pwMax : (toReset s).pwMax = s.pwMax := rfl
@[simp] theorem toReset_agenda : (toReset s).agenda = s.agenda := rfl
@[simp] theorem toReset_replies : (toReset s).replies = s.replies := rfl

/-! ## `reply` -/

@[simp] theorem reply_alg (v : Word32) : (reply v s).alg = s.alg := rfl
@[simp] theorem reply_rounds (v : Word32) : (reply v s).rounds = s.rounds := rfl
@[simp] theorem reply_slen (v : Word32) : (reply v s).slen = s.slen := rfl
@[simp] theorem reply_plen (v : Word32) : (reply v s).plen = s.plen := rfl
@[simp] theorem reply_salt (v : Word32) : (reply v s).salt = s.salt := rfl
@[simp] theorem reply_pw (v : Word32) : (reply v s).pw = s.pw := rfl
@[simp] theorem reply_ph (v : Word32) : (reply v s).ph = s.ph := rfl
@[simp] theorem reply_err (v : Word32) : (reply v s).err = s.err := rfl
@[simp] theorem reply_hctx (v : Word32) : (reply v s).hctx = s.hctx := rfl
@[simp] theorem reply_bufB (v : Word32) : (reply v s).bufB = s.bufB := rfl
@[simp] theorem reply_bufC (v : Word32) : (reply v s).bufC = s.bufC := rfl
@[simp] theorem reply_bufT (v : Word32) : (reply v s).bufT = s.bufT := rfl
@[simp] theorem reply_bufP (v : Word32) : (reply v s).bufP = s.bufP := rfl
@[simp] theorem reply_bufS (v : Word32) : (reply v s).bufS = s.bufS := rfl
@[simp] theorem reply_cnt (v : Word32) : (reply v s).cnt = s.cnt := rfl
@[simp] theorem reply_i (v : Word32) : (reply v s).i = s.i := rfl
@[simp] theorem reply_g (v : Word32) : (reply v s).g = s.g := rfl
@[simp] theorem reply_enc (v : Word32) : (reply v s).enc = s.enc := rfl
@[simp] theorem reply_pwMax (v : Word32) : (reply v s).pwMax = s.pwMax := rfl
@[simp] theorem reply_agenda (v : Word32) : (reply v s).agenda = s.agenda := rfl
@[simp] theorem reply_replies (v : Word32) : (reply v s).replies = s.replies ++ [v] := rfl

/-! ## `setBuf` -/

@[simp] theorem setBuf_alg (x : Buf) (m : Memory) : (s.setBuf x m).alg = s.alg := by cases x <;> rfl
@[simp] theorem setBuf_rounds (x : Buf) (m : Memory) : (s.setBuf x m).rounds = s.rounds := by cases x <;> rfl
@[simp] theorem setBuf_slen (x : Buf) (m : Memory) : (s.setBuf x m).slen = s.slen := by cases x <;> rfl
@[simp] theorem setBuf_plen (x : Buf) (m : Memory) : (s.setBuf x m).plen = s.plen := by cases x <;> rfl
@[simp] theorem setBuf_ph (x : Buf) (m : Memory) : (s.setBuf x m).ph = s.ph := by cases x <;> rfl
@[simp] theorem setBuf_err (x : Buf) (m : Memory) : (s.setBuf x m).err = s.err := by cases x <;> rfl
@[simp] theorem setBuf_hctx (x : Buf) (m : Memory) : (s.setBuf x m).hctx = s.hctx := by cases x <;> rfl
@[simp] theorem setBuf_cnt (x : Buf) (m : Memory) : (s.setBuf x m).cnt = s.cnt := by cases x <;> rfl
@[simp] theorem setBuf_i (x : Buf) (m : Memory) : (s.setBuf x m).i = s.i := by cases x <;> rfl
@[simp] theorem setBuf_g (x : Buf) (m : Memory) : (s.setBuf x m).g = s.g := by cases x <;> rfl
@[simp] theorem setBuf_pwMax (x : Buf) (m : Memory) : (s.setBuf x m).pwMax = s.pwMax := by cases x <;> rfl
@[simp] theorem setBuf_agenda (x : Buf) (m : Memory) : (s.setBuf x m).agenda = s.agenda := by cases x <;> rfl
@[simp] theorem setBuf_replies (x : Buf) (m : Memory) : (s.setBuf x m).replies = s.replies := by cases x <;> rfl
@[simp] theorem setBuf_pw_pw (m : Memory) : (s.setBuf .pw m).pw = m := rfl
@[simp] theorem setBuf_pw_salt (m : Memory) : (s.setBuf .pw m).salt = s.salt := rfl
@[simp] theorem setBuf_pw_bufB (m : Memory) : (s.setBuf .pw m).bufB = s.bufB := rfl
@[simp] theorem setBuf_pw_bufP (m : Memory) : (s.setBuf .pw m).bufP = s.bufP := rfl
@[simp] theorem setBuf_pw_bufS (m : Memory) : (s.setBuf .pw m).bufS = s.bufS := rfl
@[simp] theorem setBuf_pw_bufC (m : Memory) : (s.setBuf .pw m).bufC = s.bufC := rfl
@[simp] theorem setBuf_pw_bufT (m : Memory) : (s.setBuf .pw m).bufT = s.bufT := rfl
@[simp] theorem setBuf_pw_enc (m : Memory) : (s.setBuf .pw m).enc = s.enc := rfl
@[simp] theorem setBuf_salt_pw (m : Memory) : (s.setBuf .salt m).pw = s.pw := rfl
@[simp] theorem setBuf_salt_salt (m : Memory) : (s.setBuf .salt m).salt = m := rfl
@[simp] theorem setBuf_salt_bufB (m : Memory) : (s.setBuf .salt m).bufB = s.bufB := rfl
@[simp] theorem setBuf_salt_bufP (m : Memory) : (s.setBuf .salt m).bufP = s.bufP := rfl
@[simp] theorem setBuf_salt_bufS (m : Memory) : (s.setBuf .salt m).bufS = s.bufS := rfl
@[simp] theorem setBuf_salt_bufC (m : Memory) : (s.setBuf .salt m).bufC = s.bufC := rfl
@[simp] theorem setBuf_salt_bufT (m : Memory) : (s.setBuf .salt m).bufT = s.bufT := rfl
@[simp] theorem setBuf_salt_enc (m : Memory) : (s.setBuf .salt m).enc = s.enc := rfl
@[simp] theorem setBuf_b_pw (m : Memory) : (s.setBuf .b m).pw = s.pw := rfl
@[simp] theorem setBuf_b_salt (m : Memory) : (s.setBuf .b m).salt = s.salt := rfl
@[simp] theorem setBuf_b_bufB (m : Memory) : (s.setBuf .b m).bufB = m := rfl
@[simp] theorem setBuf_b_bufP (m : Memory) : (s.setBuf .b m).bufP = s.bufP := rfl
@[simp] theorem setBuf_b_bufS (m : Memory) : (s.setBuf .b m).bufS = s.bufS := rfl
@[simp] theorem setBuf_b_bufC (m : Memory) : (s.setBuf .b m).bufC = s.bufC := rfl
@[simp] theorem setBuf_b_bufT (m : Memory) : (s.setBuf .b m).bufT = s.bufT := rfl
@[simp] theorem setBuf_b_enc (m : Memory) : (s.setBuf .b m).enc = s.enc := rfl
@[simp] theorem setBuf_p_pw (m : Memory) : (s.setBuf .p m).pw = s.pw := rfl
@[simp] theorem setBuf_p_salt (m : Memory) : (s.setBuf .p m).salt = s.salt := rfl
@[simp] theorem setBuf_p_bufB (m : Memory) : (s.setBuf .p m).bufB = s.bufB := rfl
@[simp] theorem setBuf_p_bufP (m : Memory) : (s.setBuf .p m).bufP = m := rfl
@[simp] theorem setBuf_p_bufS (m : Memory) : (s.setBuf .p m).bufS = s.bufS := rfl
@[simp] theorem setBuf_p_bufC (m : Memory) : (s.setBuf .p m).bufC = s.bufC := rfl
@[simp] theorem setBuf_p_bufT (m : Memory) : (s.setBuf .p m).bufT = s.bufT := rfl
@[simp] theorem setBuf_p_enc (m : Memory) : (s.setBuf .p m).enc = s.enc := rfl
@[simp] theorem setBuf_s_pw (m : Memory) : (s.setBuf .s m).pw = s.pw := rfl
@[simp] theorem setBuf_s_salt (m : Memory) : (s.setBuf .s m).salt = s.salt := rfl
@[simp] theorem setBuf_s_bufB (m : Memory) : (s.setBuf .s m).bufB = s.bufB := rfl
@[simp] theorem setBuf_s_bufP (m : Memory) : (s.setBuf .s m).bufP = s.bufP := rfl
@[simp] theorem setBuf_s_bufS (m : Memory) : (s.setBuf .s m).bufS = m := rfl
@[simp] theorem setBuf_s_bufC (m : Memory) : (s.setBuf .s m).bufC = s.bufC := rfl
@[simp] theorem setBuf_s_bufT (m : Memory) : (s.setBuf .s m).bufT = s.bufT := rfl
@[simp] theorem setBuf_s_enc (m : Memory) : (s.setBuf .s m).enc = s.enc := rfl
@[simp] theorem setBuf_c_pw (m : Memory) : (s.setBuf .c m).pw = s.pw := rfl
@[simp] theorem setBuf_c_salt (m : Memory) : (s.setBuf .c m).salt = s.salt := rfl
@[simp] theorem setBuf_c_bufB (m : Memory) : (s.setBuf .c m).bufB = s.bufB := rfl
@[simp] theorem setBuf_c_bufP (m : Memory) : (s.setBuf .c m).bufP = s.bufP := rfl
@[simp] theorem setBuf_c_bufS (m : Memory) : (s.setBuf .c m).bufS = s.bufS := rfl
@[simp] theorem setBuf_c_bufC (m : Memory) : (s.setBuf .c m).bufC = m := rfl
@[simp] theorem setBuf_c_bufT (m : Memory) : (s.setBuf .c m).bufT = s.bufT := rfl
@[simp] theorem setBuf_c_enc (m : Memory) : (s.setBuf .c m).enc = s.enc := rfl
@[simp] theorem setBuf_t_pw (m : Memory) : (s.setBuf .t m).pw = s.pw := rfl
@[simp] theorem setBuf_t_salt (m : Memory) : (s.setBuf .t m).salt = s.salt := rfl
@[simp] theorem setBuf_t_bufB (m : Memory) : (s.setBuf .t m).bufB = s.bufB := rfl
@[simp] theorem setBuf_t_bufP (m : Memory) : (s.setBuf .t m).bufP = s.bufP := rfl
@[simp] theorem setBuf_t_bufS (m : Memory) : (s.setBuf .t m).bufS = s.bufS := rfl
@[simp] theorem setBuf_t_bufC (m : Memory) : (s.setBuf .t m).bufC = s.bufC := rfl
@[simp] theorem setBuf_t_bufT (m : Memory) : (s.setBuf .t m).bufT = m := rfl
@[simp] theorem setBuf_t_enc (m : Memory) : (s.setBuf .t m).enc = s.enc := rfl
@[simp] theorem setBuf_enc_pw (m : Memory) : (s.setBuf .enc m).pw = s.pw := rfl
@[simp] theorem setBuf_enc_salt (m : Memory) : (s.setBuf .enc m).salt = s.salt := rfl
@[simp] theorem setBuf_enc_bufB (m : Memory) : (s.setBuf .enc m).bufB = s.bufB := rfl
@[simp] theorem setBuf_enc_bufP (m : Memory) : (s.setBuf .enc m).bufP = s.bufP := rfl
@[simp] theorem setBuf_enc_bufS (m : Memory) : (s.setBuf .enc m).bufS = s.bufS := rfl
@[simp] theorem setBuf_enc_bufC (m : Memory) : (s.setBuf .enc m).bufC = s.bufC := rfl
@[simp] theorem setBuf_enc_bufT (m : Memory) : (s.setBuf .enc m).bufT = s.bufT := rfl
@[simp] theorem setBuf_enc_enc (m : Memory) : (s.setBuf .enc m).enc = m := rfl

@[simp] theorem buf_setBuf_self (x : Buf) (m : Memory) : (s.setBuf x m).buf x = m := by cases x <;> rfl

theorem buf_setBuf_ne (x y : Buf) (m : Memory) (h : y ≠ x) : (s.setBuf x m).buf y = s.buf y := by
  cases x <;> cases y <;> first | rfl | exact absurd rfl h

/-! ## `buf` -/

@[simp] theorem buf_pw : s.buf .pw = s.pw := rfl
@[simp] theorem buf_salt : s.buf .salt = s.salt := rfl
@[simp] theorem buf_b : s.buf .b = s.bufB := rfl
@[simp] theorem buf_p : s.buf .p = s.bufP := rfl
@[simp] theorem buf_s : s.buf .s = s.bufS := rfl
@[simp] theorem buf_c : s.buf .c = s.bufC := rfl
@[simp] theorem buf_t : s.buf .t = s.bufT := rfl
@[simp] theorem buf_enc : s.buf .enc = s.enc := rfl

end Sys2Proof.Machine
end

