-- ==== Sys2Proof/Laws/Ops.lean ====
section
/-! SUPPORT. One lemma per shared operation that says everything it can do; later proofs cite these and do not unfold the
operation. -/
namespace Sys2Proof.Machine

/-- A sequence goes on exactly when both its parts do. -/
theorem andThen_next {a : Answer} {k : State → Answer} {t : State} :
    andThen a k = .next t ↔ ∃ u, a = .next u ∧ k u = .next t := by
  cases a <;> simp [andThen]

@[simp] theorem andThen_next_left (s : State) (k : State → Answer) : andThen (.next s) k = k s := rfl

/-- A phase goes on exactly when its micro-operation does, in the state that `finish` makes of the micro-operation's. -/
theorem issue_next {u : State → Answer} {finish : State → State} {s t : State} :
    issue u finish s = .next t ↔ ∃ v, u s = .next v ∧ finish v = t := by
  simp [issue, andThen_next]

theorem issue_of_next {u : State → Answer} {finish : State → State} {s v : State} (h : u s = .next v) :
    issue u finish s = .next (finish v) := by
  simp [issue, h]

/-- *new* goes on exactly with a closed context, and then opens an empty one. -/
theorem openContext_next {s t : State} : openContext s = .next t ↔ s.hctx.isOpen = false ∧ t = hashNew s := by
  unfold openContext
  split <;> rename_i h1
  · simp [h1]
  · simp [h1, eq_comm]

theorem openContext_of_closed {s : State} (h : s.hctx.isOpen = false) : openContext s = .next (hashNew s) :=
  openContext_next.2 ⟨h, rfl⟩

theorem openContext_of_open {s : State} (h : s.hctx.isOpen = true) : openContext s = .refused .contextOpen := by
  rw [openContext, if_pos h]

/-- A feed goes on exactly with an open context and its bytes in the buffer, and then appends them. -/
theorem feedWhole_next {x : Buf} {s t : State} :
    feedWhole x s = .next t ↔ s.hctx.isOpen = true ∧ s.wholeInRange x = true ∧ t = appendBytes x (s.feedLen x) s := by
  unfold feedWhole
  split <;> rename_i h1
  · split <;> rename_i h2
    · simp [h1, h2, eq_comm]
    · simp [h2]
  · simp [h1]

/-- The partial feed goes on exactly with an open context and `CNT < DSZ`, and then appends `CNT` bytes of `B`. -/
theorem feedPartial_next {s t : State} :
    feedPartial s = .next t ↔ s.hctx.isOpen = true ∧ s.cge = false ∧ t = appendBytes .b s.cnt.toNat s := by
  unfold feedPartial
  split <;> rename_i h1
  · split <;> rename_i h2
    · simp [h2]
    · simp [h1, h2, eq_comm]
  · simp [h1]

/-- A finalise goes on exactly with an open context; it writes the digest and closes the context. -/
theorem hashFinish_next {x : Buf} {s t : State} :
    hashFinish x s = .next t ↔ s.hctx.isOpen = true ∧
      t = { s.setBuf x ((s.buf x).writeBytes 0 (hashBytes s.alg s.hctx.msg)) with hctx := ⟨false, []⟩ } := by
  unfold hashFinish
  split <;> rename_i h1
  · simp [h1, eq_comm]
  · simp [h1]

/-- A fill goes on exactly with its bytes in the buffer, and then writes the repeated digest. -/
theorem fillFromT_next {x : Buf} {s t : State} :
    fillFromT x s = .next t ↔ s.wholeInRange x = true ∧
      t = s.setBuf x ((s.buf x).writeBytes 0 (rep (s.bufT.readBytes 0 s.dsz) (s.feedLen x))) := by
  unfold fillFromT
  split <;> rename_i h1
  · simp [h1, eq_comm]
  · simp [h1]

/-- A full group goes on exactly when `G < NGRP − 1` and its three entries exist. -/
theorem encodeFullGroup_next {s t : State} :
    encodeFullGroup s = .next t ↔ s.groupIsFull = true ∧ ∃ i0 i1 i2,
      permEntry s.alg (3 * s.g.toNat) = some i0 ∧ permEntry s.alg (3 * s.g.toNat + 1) = some i1 ∧
      permEntry s.alg (3 * s.g.toNat + 2) = some i2 ∧
      t = emitGroup (4 * s.g.toNat) 4 (s.bufC.read i0) (s.bufC.read i1) (s.bufC.read i2) s := by
  unfold encodeFullGroup
  split <;> rename_i h1
  · split
    · rename_i i0 i1 i2 e0 e1 e2
      simp [h1, e0, e1, e2, eq_comm]
    · rename_i hno
      constructor
      · intro h; cases h
      · rintro ⟨-, i0, i1, i2, e0, e1, e2, -⟩
        exact absurd e2 (hno i0 i1 i2 e0 e1)
  · simp [h1]

/-- CHK always goes on: into error entry, or with the internal state cleared. -/
theorem checkJob_next {passed : State → State} {s t : State} :
    checkJob passed s = .next t ↔
      (∃ e, jobError s = some e ∧ t = raiseError e s) ∨ (jobError s = none ∧ t = passed (clearInternal s)) := by
  unfold checkJob
  split <;> rename_i h <;> simp [h, eq_comm]

theorem fits_iff {n size : Nat} : fits n size = true ↔ n ≤ size := by
  unfold fits
  simp only [Bool.or_eq_true, beq_iff_eq, Nat.ble_eq]
  omega

/-- The job has no error exactly when the algorithm is one of the two and both lengths fit. -/
theorem jobError_none {s : State} :
    jobError s = none ↔ (s.alg = 5 ∨ s.alg = 6) ∧ s.slen.toNat ≤ 16 ∧ s.plen.toNat ≤ s.pwMax := by
  unfold jobError
  by_cases h : s.alg = 5 ∨ s.alg = 6
  · rw [if_neg (by tauto)]
    by_cases hl : s.slen.toNat ≤ 16 ∧ s.plen.toNat ≤ s.pwMax
    · have hf := fits_iff.2 hl.2
      rw [if_neg (by rw [hf]; simp; omega)]
      exact iff_of_true rfl ⟨h, hl⟩
    · have : 16 < s.slen.toNat ∨ fits s.plen.toNat s.pwMax = false := by
        by_cases h16 : 16 < s.slen.toNat
        · exact Or.inl h16
        · refine Or.inr (Bool.eq_false_iff.2 fun hf => hl ⟨by omega, fits_iff.1 hf⟩)
      rw [if_pos this]
      simp [hl]
  · rw [if_pos (by tauto)]
    simp only [reduceCtorEq, false_iff]
    exact fun hh => h hh.1

/-- With a job that CHK accepts, every whole buffer is in range. -/
theorem wholeInRange_of_job {s : State} (h : jobError s = none) (x : Buf) : s.wholeInRange x = true := by
  obtain ⟨-, h1, h2⟩ := jobError_none.1 h
  cases x <;> simp [State.wholeInRange, fits_iff, h1, h2]

@[simp] theorem rep_length (d : Bytes) (n : Nat) : (rep d n).length = n := by simp [rep]

theorem rep_getD (d : Bytes) (n k : Nat) (h : k < n) : (rep d n).getD k 0 = d.getD (k % d.length) 0 := by
  simp [rep, List.getD_eq_getElem?_getD, h]

@[simp] theorem groupChars_length (b0 b1 b2 : Byte) : (groupChars b0 b1 b2).length = 4 := rfl

theorem unlessBusy_of_busy {f : State → State} {s : State} (h : s.busy = true) : unlessBusy f s = s := by
  simp [unlessBusy, h]

theorem unlessBusy_of_not_busy {f : State → State} {s : State} (h : s.busy = false) : unlessBusy f s = f s := by
  simp [unlessBusy, h]

/-- BUSY is every phase but the three terminal ones. -/
theorem busy_iff {s : State} : s.busy = true ↔ s.ph ≠ .idle ∧ s.ph ≠ .done ∧ s.ph ≠ .err := by
  unfold State.busy State.status
  cases s.ph <;> simp

theorem command_start (s : State) : command 0x01 s = startJob s := rfl

theorem command_clear (s : State) : command 0x02 s = toReset s := rfl

theorem command_reserved {code : Byte} (s : State) (h : code ≠ 0x01 ∧ code ≠ 0x02) : command code s = badCommand s := by
  rw [command, if_neg h.1, if_neg h.2]

end Sys2Proof.Machine
end

