-- ==== Sys2Proof/Laws/PerInstr.lean ====
section
/-! SUPPORT. The per-instruction family `EncodingFits`: the word of every instruction lies inside its format's width
(30_encoding.md R90). -/
namespace Sys2Proof.Laws.EncodingFits

/-- The word of the instruction has no bit above its format's width. -/
def Statement (i : Instr) : Prop := i.word < 2 ^ i.format.width

theorem nop : Statement .nop  := by unfold Statement; decide
theorem chk : Statement .chk  := by unfold Statement; decide
theorem hnew : Statement .hnew  := by unfold Statement; decide
theorem hupdPw : Statement .hupdPw  := by unfold Statement; decide
theorem hupdSalt : Statement .hupdSalt  := by unfold Statement; decide
theorem hupdB : Statement .hupdB  := by unfold Statement; decide
theorem hupdP : Statement .hupdP  := by unfold Statement; decide
theorem hupdS : Statement .hupdS  := by unfold Statement; decide
theorem hupdC : Statement .hupdC  := by unfold Statement; decide
theorem hupdn : Statement .hupdn  := by unfold Statement; decide
theorem hfinB : Statement .hfinB  := by unfold Statement; decide
theorem hfinC : Statement .hfinC  := by unfold Statement; decide
theorem hfinT : Statement .hfinT  := by unfold Statement; decide
theorem fillP : Statement .fillP  := by unfold Statement; decide
theorem fillS : Statement .fillS  := by unfold Statement; decide
theorem encg4 : Statement .encg4  := by unfold Statement; decide
theorem encg3 : Statement .encg3  := by unfold Statement; decide
theorem encg2 : Statement .encg2  := by unfold Statement; decide

theorem rd (obj : Obj) (idx : Word32) : Statement (.rd obj idx) := by
  have h1 := obj.code.isLt
  have h2 := idx.isLt
  simp only [Statement, Instr.word, Instr.format, Format.width]
  apply Nat.or_lt_two_pow <;> rw [Nat.shiftLeft_eq] <;> omega

theorem wr (obj : Obj) (idx data : Word32) : Statement (.wr obj idx data) := by
  have h1 := obj.code.isLt
  have h2 := idx.isLt
  have h3 := data.isLt
  simp only [Statement, Instr.word, Instr.format, Format.width]
  refine Nat.or_lt_two_pow (Nat.or_lt_two_pow (Nat.or_lt_two_pow (by norm_num) ?_) ?_) ?_ <;>
    rw [Nat.shiftLeft_eq] <;> omega

theorem start : Statement .start  := by unfold Statement; decide
theorem clear : Statement .clear  := by unfold Statement; decide
theorem cmdReserved (code : Byte) : Statement (.cmdReserved code) := code.isLt

theorem rndCp : Statement .rndCp  := by unfold Statement; decide
theorem rndCpp : Statement .rndCpp  := by unfold Statement; decide
theorem rndCsp : Statement .rndCsp  := by unfold Statement; decide
theorem rndCspp : Statement .rndCspp  := by unfold Statement; decide
theorem rndPc : Statement .rndPc  := by unfold Statement; decide
theorem rndPpc : Statement .rndPpc  := by unfold Statement; decide
theorem rndPsc : Statement .rndPsc  := by unfold Statement; decide
theorem rndPspc : Statement .rndPspc  := by unfold Statement; decide
theorem phIdle : Statement .phIdle  := by unfold Statement; decide
theorem phChk : Statement .phChk  := by unfold Statement; decide
theorem phB0 : Statement .phB0  := by unfold Statement; decide
theorem phB1 : Statement .phB1  := by unfold Statement; decide
theorem phB2 : Statement .phB2  := by unfold Statement; decide
theorem phB3 : Statement .phB3  := by unfold Statement; decide
theorem phB4 : Statement .phB4  := by unfold Statement; decide
theorem phA0 : Statement .phA0  := by unfold Statement; decide
theorem phA1 : Statement .phA1  := by unfold Statement; decide
theorem phA2 : Statement .phA2  := by unfold Statement; decide
theorem phA3 : Statement .phA3  := by unfold Statement; decide
theorem phA4 : Statement .phA4  := by unfold Statement; decide
theorem phA5 : Statement .phA5  := by unfold Statement; decide
theorem phDp0 : Statement .phDp0  := by unfold Statement; decide
theorem phDp1 : Statement .phDp1  := by unfold Statement; decide
theorem phDp2 : Statement .phDp2  := by unfold Statement; decide
theorem phP0 : Statement .phP0  := by unfold Statement; decide
theorem phDs0 : Statement .phDs0  := by unfold Statement; decide
theorem phDs1 : Statement .phDs1  := by unfold Statement; decide
theorem phDs2 : Statement .phDs2  := by unfold Statement; decide
theorem phS0 : Statement .phS0  := by unfold Statement; decide
theorem phRt : Statement .phRt  := by unfold Statement; decide
theorem phR1 : Statement .phR1  := by unfold Statement; decide
theorem phR2 : Statement .phR2  := by unfold Statement; decide
theorem phR3 : Statement .phR3  := by unfold Statement; decide
theorem phR4 : Statement .phR4  := by unfold Statement; decide
theorem phR5 : Statement .phR5  := by unfold Statement; decide
theorem phE0 : Statement .phE0  := by unfold Statement; decide
theorem phDone : Statement .phDone  := by unfold Statement; decide
theorem phErr : Statement .phErr  := by unfold Statement; decide

end Sys2Proof.Laws.EncodingFits
end

