-- ==== Sys2Proof/Laws/Run.lean ====
section
/-! SUPPORT. Runs of the machine: how a run of several steps is made of its steps. -/
namespace Sys2Proof.Machine

/-- A run of no steps. -/
theorem run_zero (s : State) : Sys2Proof.core.run 0 s = .next s := rfl

/-- A run is its first step and the rest. -/
theorem run_succ (n : Nat) (s : State) : Sys2Proof.core.run (n + 1) s = andThen (step s) fun t => Sys2Proof.core.run n t := by
  refine (Host.Core.run.eq_2 Sys2Proof.core s n).trans ?_
  show _ = andThen (Sys2Proof.core.step s) _
  cases Sys2Proof.core.step s <;> rfl

theorem run_succ_of_next {s t : State} (n : Nat) (h : step s = .next t) :
    Sys2Proof.core.run (n + 1) s = Sys2Proof.core.run n t := by
  rw [run_succ, h]
  rfl

/-- A run of `n + k` steps is a run of `n` steps and then one of `k`. -/
theorem run_add {s t : State} (n k : Nat) (h : Sys2Proof.core.run n s = .next t) :
    Sys2Proof.core.run (n + k) s = Sys2Proof.core.run k t := by
  induction n generalizing s with
  | zero =>
    rw [run_zero] at h
    cases h
    rw [Nat.zero_add]
  | succ n ih =>
    rw [run_succ] at h
    obtain ⟨u, h1, h2⟩ := andThen_next.1 h
    rw [Nat.succ_add, run_succ_of_next _ h1, ih h2]

/-- In IDLE, DONE and ERROR without turns to come a step changes nothing (60_exceptions.md R415). -/
theorem step_of_terminal {s : State} (hp : s.ph = .idle ∨ s.ph = .done ∨ s.ph = .err) (ha : s.agenda = []) :
    step s = .next s := by
  unfold step fetch sequencerWord
  rw [ha]
  rcases hp with hp | hp | hp <;> rw [hp] <;> rfl

theorem run_of_terminal {s : State} (n : Nat) (hp : s.ph = .idle ∨ s.ph = .done ∨ s.ph = .err) (ha : s.agenda = []) :
    Sys2Proof.core.run n s = .next s := by
  induction n with
  | zero => rfl
  | succ n ih => rw [run_succ_of_next n (step_of_terminal hp ha), ih]

end Sys2Proof.Machine
end

