-- ==== Sys2Proof/Tests/Slice0.lean ====
section
/-! SUPPORT. Tests on fixed values, each expected value taken from spec/ (the file and rule or example is named), and one
witness for the hypotheses of each statement that has any. -/
namespace Sys2Proof.Tests
open Sys2Proof Sys2Proof.Machine

set_option Elab.async false

/-! ## Helpers -/

/-- The answer is a next state with the property. -/
def after (a : Answer) (p : State → Bool) : Bool :=
  match a with
  | .next t => p t
  | _ => false

/-- The answer is this refusal. -/
def refusedWith (a : Answer) (r : Refusal) : Bool :=
  match a with
  | .refused q => q == r
  | _ => false

/-- The answer is this fault. -/
def faultedWith (a : Answer) (r : Fault) : Bool :=
  match a with
  | .fault q => q == r
  | _ => false

/-- A block of `PW_MAX` = 128 with the job (`p`, `s`, 2, SHA256), in a phase. -/
def atPhase (p : Phase) : State :=
  { State.reset with
    pwMax := 128, alg := 5, rounds := 2, slen := 1, plen := 1, salt := [(0, 0x73)], pw := [(0, 0x70)], ph := p }

/-- The same with an open context that holds `m`. -/
def opened (p : Phase) (m : Bytes) : State :=
  { atPhase p with hctx := ⟨true, m⟩ }

/-- The bytes 1, 2, 3, ... at offsets 0, 1, 2, ... -/
def ramp (n : Nat) : Memory :=
  Memory.writeBytes [] 0 ((List.range n).map fun k => BitVec.ofNat 8 (k + 1))

/-! ## Well-formedness: the one check refuses its ill-formed terms (30_encoding.md R95) -/

theorem test_wf_refuses_start_as_reserved : (Instr.cmdReserved 0x01).wf = false := by decide
theorem test_wf_refuses_clear_as_reserved : (Instr.cmdReserved 0x02).wf = false := by decide
theorem test_wf_admits_reserved_commands : (Instr.cmdReserved 0x00).wf = true ∧ (Instr.cmdReserved 0xFF).wf = true := by
  decide

/-! ## Decoding: every constructor's word, written from 30_encoding.md R101, R95, R93 and R94, R107, R104 -/

theorem test_decode_control :
    decode .u 0b00000000 = .instr .nop ∧ decode .u 0b00000001 = .instr .chk ∧ decode .u 0b00010000 = .instr .hnew := by
  decide

theorem test_decode_feeds :
    decode .u 0b00100000 = .instr .hupdPw ∧ decode .u 0b00100001 = .instr .hupdSalt ∧
    decode .u 0b00100010 = .instr .hupdB ∧ decode .u 0b00100011 = .instr .hupdP ∧
    decode .u 0b00100100 = .instr .hupdS ∧ decode .u 0b00100101 = .instr .hupdC ∧
    decode .u 0b00101010 = .instr .hupdn := by decide

theorem test_decode_finals_and_fills :
    decode .u 0b00110010 = .instr .hfinB ∧ decode .u 0b00110101 = .instr .hfinC ∧ decode .u 0b00110110 = .instr .hfinT ∧
    decode .u 0b01000011 = .instr .fillP ∧ decode .u 0b01000100 = .instr .fillS := by decide

theorem test_decode_encoder :
    decode .ue 0b01010100 = .instr .encg4 ∧ decode .ue 0b01010011 = .instr .encg3 ∧
    decode .ue 0b01010010 = .instr .encg2 := by decide

theorem test_decode_commands :
    decode .cmd 0b00000001 = .instr .start ∧ decode .cmd 0b00000010 = .instr .clear ∧
    decode .cmd 0b00000000 = .instr (.cmdReserved 0x00) ∧ decode .cmd 0b11111111 = .instr (.cmdReserved 0xFF) := by decide

/-- `RD SALT[15]`, and `WR PLEN, 0xFFFFFFFF` with every bit of the value set. -/
theorem test_decode_accesses :
    decode .ha (0 + 0x8 * 2 + 15 * 2 ^ 5) = .instr (.rd .salt 15) ∧
    decode .ha (1 + 0x6 * 2 + 0 * 2 ^ 5 + 0xFFFFFFFF * 2 ^ 37) = .instr (.wr .plen 0 0xFFFFFFFF) ∧
    decode .ha (1 + 0x9 * 2 + 0x80000000 * 2 ^ 5 + 0x70 * 2 ^ 37) = .instr (.wr .pw 0x80000000 0x70) := by decide +kernel

theorem test_decode_rounds :
    decode .rt 0b000 = .instr .rndCp ∧ decode .rt 0b001 = .instr .rndCpp ∧ decode .rt 0b010 = .instr .rndCsp ∧
    decode .rt 0b011 = .instr .rndCspp ∧ decode .rt 0b100 = .instr .rndPc ∧ decode .rt 0b101 = .instr .rndPpc ∧
    decode .rt 0b110 = .instr .rndPsc ∧ decode .rt 0b111 = .instr .rndPspc := by decide

theorem test_decode_setup_phases :
    decode .phase 0x00 = .instr .phIdle ∧ decode .phase 0x01 = .instr .phChk ∧ decode .phase 0x02 = .instr .phB0 ∧
    decode .phase 0x03 = .instr .phB1 ∧ decode .phase 0x04 = .instr .phB2 ∧ decode .phase 0x05 = .instr .phB3 ∧
    decode .phase 0x06 = .instr .phB4 ∧ decode .phase 0x07 = .instr .phA0 ∧ decode .phase 0x08 = .instr .phA1 ∧
    decode .phase 0x09 = .instr .phA2 ∧ decode .phase 0x0A = .instr .phA3 ∧ decode .phase 0x0B = .instr .phA4 ∧
    decode .phase 0x0C = .instr .phA5 ∧ decode .phase 0x0D = .instr .phDp0 ∧ decode .phase 0x0E = .instr .phDp1 ∧
    decode .phase 0x0F = .instr .phDp2 := by decide

theorem test_decode_later_phases :
    decode .phase 0x10 = .instr .phP0 ∧ decode .phase 0x11 = .instr .phDs0 ∧ decode .phase 0x12 = .instr .phDs1 ∧
    decode .phase 0x13 = .instr .phDs2 ∧ decode .phase 0x14 = .instr .phS0 ∧ decode .phase 0x15 = .instr .phRt ∧
    decode .phase 0x16 = .instr .phR1 ∧ decode .phase 0x17 = .instr .phR2 ∧ decode .phase 0x18 = .instr .phR3 ∧
    decode .phase 0x19 = .instr .phR4 ∧ decode .phase 0x1A = .instr .phR5 ∧ decode .phase 0x1B = .instr .phE0 ∧
    decode .phase 0x1C = .instr .phDone ∧ decode .phase 0x1D = .instr .phErr := by decide

/-- R102's own examples of reserved bytes, and the first and last unused phase code (R103). -/
theorem test_decode_refuses_reserved :
    decode .u 0x26 = .illegal (.reservedMicroOp 0x26) ∧ decode .u 0x28 = .illegal (.reservedMicroOp 0x28) ∧
    decode .u 0x30 = .illegal (.reservedMicroOp 0x30) ∧ decode .ue 0x55 = .illegal (.reservedMicroOp 0x55) ∧
    decode .phase 0x1E = .illegal (.unusedPhase 0x1E) ∧ decode .phase 0x3F = .illegal (.unusedPhase 0x3F) := by decide

/-! ## The hash primitive (41_sha2_functions.md R177: the empty message) -/

theorem test_sha256_empty :
    hashBytes 5 [] = bytesBE 32 0xe3b0c44298fc1c149afbf4c8996fb92427ae41e4649b934ca495991b7852b855 := by decide +kernel

/-- The last words of the tables (R166, R168). -/
theorem test_round_constants :
    sha256.k.length = 64 ∧ sha512.k.length = 80 ∧ sha256.k.getD 63 0 = 0xc67178f2 ∧ sha512.k.getD 79 0 = 0x6c44198c4a475817 ∧
    sha256.iv.getD 7 0 = 0x5be0cd19 ∧ sha512.iv.getD 7 0 = 0x5be0cd19137e2179 := by decide +kernel

/-- 95_test_vectors.md T5. -/
theorem test_sha512_empty :
    hashBytes 6 [] = bytesBE 64 0xcf83e1357eefb8bdf1542850d66d8007d620e4050b5715dc83f4a921d36ce9ce47d0d13c5d85f2b0ff8318d2877eec2f63b931bd47417a81a538327af927da3e := by
  decide +kernel

/-! ## Micro-operations -/

/-- R132, and R143 with U13 for a context that is open. -/
theorem test_hnew :
    after (exec .hnew { atPhase .a0 with hctx := ⟨false, [1, 2]⟩ }) (fun t => t.hctx == ⟨true, []⟩) = true ∧
    refusedWith (exec .hnew (opened .a0 [1, 2])) .contextOpen = true := by decide +kernel

/-- 40_hash_port.md R133's example. -/
theorem test_hupd_pw :
    after (exec .hupdPw { opened .b1 [] with plen := 3, pw := [(0, 0x61), (1, 0x62), (2, 0x63)] })
      (fun t => t.hctx.msg == [0x61, 0x62, 0x63]) = true := by decide +kernel

/-- R134's example. -/
theorem test_hupd_salt :
    after (exec .hupdSalt { opened .b2 [0x61] with slen := 2, salt := [(0, 0x73), (1, 0x74), (2, 0xFF)] })
      (fun t => t.hctx.msg == [0x61, 0x73, 0x74]) = true := by decide +kernel

/-- R135: 32 bytes for SHA256, never more. -/
theorem test_hupd_b :
    after (exec .hupdB { opened .a3 [0] with bufB := ramp 64 })
      (fun t => t.hctx.msg == 0 :: (List.range 32).map fun k => BitVec.ofNat 8 (k + 1)) = true := by decide +kernel

/-- R136: `PLEN` = 12 bytes of `P`. -/
theorem test_hupd_p :
    after (exec .hupdP { opened .r1 [] with plen := 12, bufP := ramp 20 })
      (fun t => t.hctx.msg == [1, 2, 3, 4, 5, 6, 7, 8, 9, 10, 11, 12]) = true := by decide +kernel

/-- R137. -/
theorem test_hupd_s :
    after (exec .hupdS { opened .r2 [9] with slen := 2, bufS := ramp 16 }) (fun t => t.hctx.msg == [9, 1, 2]) = true := by
  decide +kernel

/-- R138: all 64 bytes for SHA512. -/
theorem test_hupd_c :
    after (exec .hupdC { opened .r1 [] with alg := 6, bufC := ramp 64 }) (fun t => t.hctx.msg.length == 64) = true := by
  decide +kernel

/-- R139's example: `CNT` = 12. -/
theorem test_hupdn :
    after (exec .hupdn { opened .a3 [] with cnt := 12, bufB := ramp 64 })
      (fun t => t.hctx.msg == [1, 2, 3, 4, 5, 6, 7, 8, 9, 10, 11, 12] && t.cnt == 12) = true := by decide +kernel

/-- 95_test_vectors.md, family 40: `H("psp")` into `B`. -/
theorem test_hfin_b :
    after (exec .hfinB (opened .b4 [0x70, 0x73, 0x70])) (fun t => t.hctx == ⟨false, []⟩ && t.bufB.read 32 == 0 &&
      t.bufB.readBytes 0 32 == bytesBE 32 0x8f8e1f80de4676c8ee428a8f854332a2f07d9910569917d65fbced0e5b90c079) = true := by
  decide +kernel

/-- Family 40: the empty message into `C`; bytes 32 to 63 stay (R141). -/
theorem test_hfin_c :
    after (exec .hfinC { opened .a5 [] with bufC := ramp 64 }) (fun t => t.bufC.read 32 == 33 && t.bufC.read 63 == 64 &&
      t.bufC.readBytes 0 32 == bytesBE 32 0xe3b0c44298fc1c149afbf4c8996fb92427ae41e4649b934ca495991b7852b855) = true := by
  decide +kernel

/-- Family 41: `H("p")` into `T`. -/
theorem test_hfin_t :
    after (exec .hfinT (opened .dp2 [0x70])) (fun t =>
      t.bufT.readBytes 0 32 == bytesBE 32 0x148de9c5a7a44d19e56cd9ae1a554bf67847afb0c58f6e12fa29ac7ddfca9940) = true := by
  decide +kernel

/-- 42_digest_setup.md R198's example: `P` = `T[0..32) ‖ T[0..8)`. -/
theorem test_fill_p :
    after (exec .fillP { atPhase .p0 with plen := 40, bufT := ramp 64 })
      (fun t => t.bufP.read 31 == 32 && t.bufP.read 32 == 1 && t.bufP.read 39 == 8 && t.bufP.read 40 == 0) = true := by
  decide +kernel

/-- R199's example: `S` = `T[0..10)`. -/
theorem test_fill_s :
    after (exec .fillS { atPhase .s0 with slen := 10, bufT := ramp 64 })
      (fun t => t.bufS.read 9 == 10 && t.bufS.read 10 == 0) = true := by decide +kernel

theorem test_nop : after (exec .nop (opened .r2 [7])) (fun t => t == opened .r2 [7]) = true := by decide +kernel

/-- R227's example: `ALG` = 7; and 60_exceptions.md R398's: `ALG` = 0 and `SLEN` = 200. -/
theorem test_chk_unsupported :
    after (exec .chk { atPhase .chk with alg := 7 }) (fun t => t.err == 1 && t.ph == .err) = true ∧
    after (exec .chk { atPhase .chk with alg := 0, slen := 200 }) (fun t => t.err == 1 && t.slen == 200) = true := by
  decide +kernel

theorem test_chk_lengths :
    after (exec .chk { atPhase .chk with slen := 17 }) (fun t => t.err == 2) = true ∧
    after (exec .chk { atPhase .chk with plen := 129 }) (fun t => t.err == 2) = true ∧
    after (exec .chk { atPhase .chk with slen := 16, plen := 128, cnt := 3, enc := ramp 9 })
      (fun t => t.err == 0 && t.ph == .chk && t.cnt == 0 && t.enc == []) = true := by decide +kernel

/-- 44_mcf_encoder.md R291's example: bytes (1, 2, 3) give `/6k.`; group 1 has the bytes `C[11]`, `C[1]`, `C[21]`. -/
theorem test_encg4 :
    after (exec .encg4 { atPhase .e0 with g := 1, bufC := [(1, 2), (11, 1), (21, 3)] })
      (fun t => t.enc == Memory.writeBytes [] 4 (ascii "/6k.")) = true := by decide +kernel

/-- 95_test_vectors.md, family 44: group 20 of V2. -/
theorem test_encg4_sha512 :
    after (exec .encg4 { atPhase .e0 with alg := 6, g := 20, bufC := [(20, 0xe1), (41, 0xc5), (62, 0xce)] })
      (fun t => t.enc == Memory.writeBytes [] 80 (ascii "35in")) = true := by decide +kernel

/-- R292's example. -/
theorem test_encg3 :
    after (exec .encg3 { atPhase .e0 with g := 10, bufC := [(30, 0x10), (31, 0x7A)] })
      (fun t => t.enc == Memory.writeBytes [] 40 (ascii "Ec5")) = true := by decide +kernel

/-- R293's example. -/
theorem test_encg2 :
    after (exec .encg2 { atPhase .e0 with alg := 6, g := 21, bufC := [(63, 0xFF)] })
      (fun t => t.enc == Memory.writeBytes [] 84 (ascii "z1")) = true := by decide +kernel

/-! ## The host port (95_test_vectors.md, family 45) -/

theorem test_rd_after_reset :
    after (exec (.rd .status 0) State.reset) (fun t => t.replies == [0]) = true ∧
    after (exec (.rd .rounds 0) State.reset) (fun t => t.replies == [5000]) = true := by decide +kernel

/-- Lines 6, 7 and 10, and a result in DONE. -/
theorem test_rd_views :
    after (exec (.rd .salt 16) (atPhase .idle)) (fun t => t.replies == [0]) = true ∧
    after (exec (.rd .pw 0) (atPhase .idle)) (fun t => t.replies == [0]) = true ∧
    after (exec (.rd .digest 0) { atPhase .r1 with bufC := ramp 64 }) (fun t => t.replies == [0]) = true ∧
    after (exec (.rd .digest 63) { atPhase .done with bufC := ramp 64 }) (fun t => t.replies == [64]) = true := by
  decide +kernel

/-- Lines 4, 5 and 8, 9. -/
theorem test_wr :
    after (exec (.wr .alg 0 0x105) State.reset) (fun t => t.alg == 5) = true ∧
    after (exec (.wr .salt 16 0x41) (atPhase .idle)) (fun t => t == atPhase .idle) = true ∧
    after (exec (.wr .status 0 2) (atPhase .idle)) (fun t => t == atPhase .idle) = true ∧
    after (exec (.wr .reserved7 0 1) (atPhase .idle)) (fun t => t == atPhase .idle) = true := by decide +kernel

/-- 45_host_commands.md R325. -/
theorem test_wr_while_busy :
    after (exec (.wr .ctrl 0 2) (atPhase .b1)) (fun t => t == atPhase .b1) = true ∧
    after (exec (.wr .rounds 0 9) (atPhase .b1)) (fun t => t == atPhase .b1) = true := by decide +kernel

theorem test_start : after (exec .start { atPhase .err with err := 2 }) (fun t => t.ph == .chk && t.err == 0) = true := by
  decide +kernel

/-- Line 13. -/
theorem test_clear :
    after (exec .clear { atPhase .done with enc := ramp 3 })
      (fun t => t.ph == .idle && t.alg == 0 && t.rounds == 5000 && t.pw == [] && t.enc == []) = true := by decide +kernel

/-- Line 12. -/
theorem test_cmd_reserved :
    after (exec (.cmdReserved 0x00) { atPhase .done with bufC := ramp 3 })
      (fun t => t.ph == .err && t.err == 3 && t.bufC == [] && t.alg == 5) = true := by decide +kernel

/-! ## Round types (43_round_loop.md R241 to R248) -/

/-- The bytes of `C`, `P` and `S` are told apart by their values; `I` = 41 becomes 42. -/
def roundState : State :=
  { atPhase .rt with i := 41, rounds := 50, bufC := ramp 32, bufP := [(0, 0xA1)], bufS := [(0, 0xB2)] }

/-- The digest of a round's message, with its last-but-one effects. -/
def roundGives (i : Instr) (m : Bytes) : Bool :=
  after (exec i roundState) fun t =>
    t.bufC.readBytes 0 32 == hashBytes 5 m && t.i == 42 && t.ph == .rt && t.hctx == ⟨false, []⟩

def c32 : Bytes := (List.range 32).map fun k => BitVec.ofNat 8 (k + 1)

theorem test_rnd_cp : roundGives .rndCp (c32 ++ [0xA1]) = true := by decide +kernel
theorem test_rnd_cpp : roundGives .rndCpp (c32 ++ [0xA1, 0xA1]) = true := by decide +kernel
theorem test_rnd_csp : roundGives .rndCsp (c32 ++ [0xB2, 0xA1]) = true := by decide +kernel
theorem test_rnd_cspp : roundGives .rndCspp (c32 ++ [0xB2, 0xA1, 0xA1]) = true := by decide +kernel
theorem test_rnd_pc : roundGives .rndPc ([0xA1] ++ c32) = true := by decide +kernel
theorem test_rnd_ppc : roundGives .rndPpc ([0xA1, 0xA1] ++ c32) = true := by decide +kernel
theorem test_rnd_psc : roundGives .rndPsc ([0xA1, 0xB2] ++ c32) = true := by decide +kernel
theorem test_rnd_pspc : roundGives .rndPspc ([0xA1, 0xB2, 0xA1] ++ c32) = true := by decide +kernel

/-! ## Phases (30_encoding.md R104) -/

theorem test_terminal_phases :
    after (exec .phIdle (atPhase .idle)) (fun t => t == atPhase .idle) = true ∧
    after (exec .phDone (atPhase .done)) (fun t => t == atPhase .done) = true ∧
    after (exec .phErr (atPhase .err)) (fun t => t == atPhase .err) = true := by decide +kernel

theorem test_phase_chk :
    after (exec .phChk (atPhase .chk)) (fun t => t.ph == .b0) = true ∧
    after (exec .phChk State.reset) (fun t => t.ph == .err && t.err == 1) = true := by decide +kernel

theorem test_opening_phases :
    after (exec .phB0 (atPhase .b0)) (fun t => t.ph == .b1 && t.hctx.isOpen) = true ∧
    after (exec .phA0 (atPhase .a0)) (fun t => t.ph == .a1 && t.hctx.isOpen) = true ∧
    after (exec .phDp0 { atPhase .dp0 with plen := 9 }) (fun t => t.ph == .dp1 && t.cnt == 9) = true := by decide +kernel

/-- R216: the sum of the largest byte. -/
theorem test_phase_ds0 :
    after (exec .phDs0 { atPhase .ds0 with bufC := [(0, 0xFF)] }) (fun t => t.ph == .ds1 && t.cnt == 271) = true := by
  decide +kernel

theorem test_feeding_phases :
    after (exec .phB1 (opened .b1 [])) (fun t => t.ph == .b2 && t.hctx.msg == [0x70]) = true ∧
    after (exec .phB2 (opened .b2 [])) (fun t => t.ph == .b3 && t.hctx.msg == [0x73]) = true ∧
    after (exec .phB3 (opened .b3 [])) (fun t => t.ph == .b4 && t.hctx.msg == [0x70]) = true ∧
    after (exec .phA1 (opened .a1 [])) (fun t => t.ph == .a2 && t.hctx.msg == [0x70]) = true ∧
    after (exec .phA2 (opened .a2 [])) (fun t => t.ph == .a3 && t.hctx.msg == [0x73] && t.cnt == 1) = true := by
  decide +kernel

theorem test_final_phases :
    after (exec .phB4 (opened .b4 [])) (fun t => t.ph == .a0 && t.bufB.read 0 == 0xe3) = true ∧
    after (exec .phA5 (opened .a5 [])) (fun t => t.ph == .dp0 && t.bufC.read 0 == 0xe3) = true ∧
    after (exec .phDp2 (opened .dp2 [])) (fun t => t.ph == .p0 && t.bufT.read 0 == 0xe3) = true ∧
    after (exec .phDs2 (opened .ds2 [])) (fun t => t.ph == .s0 && t.bufT.read 0 == 0xe3) = true := by decide +kernel

theorem test_fill_phases :
    after (exec .phP0 { atPhase .p0 with bufT := ramp 32 }) (fun t => t.ph == .ds0 && t.bufP == [(0, 1)]) = true ∧
    after (exec .phS0 { atPhase .s0 with bufT := ramp 32, i := 8 })
      (fun t => t.ph == .rt && t.bufS == [(0, 1)] && t.i == 0) = true := by decide +kernel

/-- R209: `HUPDN` reads `CNT` before the write of the same step. -/
theorem test_phase_a3 :
    after (exec .phA3 { opened .a3 [] with cnt := 33, bufB := ramp 64 })
      (fun t => t.ph == .a3 && t.cnt == 1 && t.hctx.msg.length == 32) = true ∧
    after (exec .phA3 { opened .a3 [] with cnt := 2, plen := 34, bufB := ramp 64 })
      (fun t => t.ph == .a4 && t.cnt == 34 && t.hctx.msg == [1, 2]) = true := by decide +kernel

theorem test_phase_a4 :
    after (exec .phA4 (opened .a4 [])) (fun t => t.ph == .a5) = true ∧
    after (exec .phA4 { opened .a4 [] with cnt := 3 }) (fun t => t.ph == .a4 && t.cnt == 1 && t.hctx.msg.length == 32) = true ∧
    after (exec .phA4 { opened .a4 [] with cnt := 6 }) (fun t => t.cnt == 3 && t.hctx.msg == [0x70]) = true := by
  decide +kernel

theorem test_repetition_phases :
    after (exec .phDp1 { opened .dp1 [] with cnt := 1 }) (fun t => t.ph == .dp1 && t.cnt == 0 && t.hctx.msg == [0x70]) = true ∧
    after (exec .phDp1 (opened .dp1 [])) (fun t => t.ph == .dp2 && t.hctx.msg == []) = true ∧
    after (exec .phDs1 { opened .ds1 [] with cnt := 1 }) (fun t => t.ph == .ds1 && t.cnt == 0 && t.hctx.msg == [0x73]) = true ∧
    after (exec .phDs1 (opened .ds1 [])) (fun t => t.ph == .ds2 && t.hctx.msg == []) = true := by decide +kernel

theorem test_phase_rt :
    after (exec .phRt { atPhase .rt with i := 2 }) (fun t => t.ph == .e0 && !t.hctx.isOpen) = true ∧
    after (exec .phRt { atPhase .rt with i := 1 }) (fun t => t.ph == .r1 && t.hctx.isOpen) = true := by decide +kernel

/-- 43_round_loop.md R253 to R256 at `I` = 0, where only `C` and **P** are fed, and at `I` = 1, where all four are. -/
theorem test_round_phases_even :
    after (exec .phR1 { roundState with hctx := ⟨true, []⟩, i := 0 }) (fun t => t.ph == .r2 && t.hctx.msg == c32) = true ∧
    after (exec .phR2 { roundState with hctx := ⟨true, []⟩, i := 0 }) (fun t => t.ph == .r3 && t.hctx.msg == []) = true ∧
    after (exec .phR3 { roundState with hctx := ⟨true, []⟩, i := 0 }) (fun t => t.ph == .r4 && t.hctx.msg == []) = true ∧
    after (exec .phR4 { roundState with hctx := ⟨true, []⟩, i := 0 }) (fun t => t.ph == .r5 && t.hctx.msg == [0xA1]) = true := by
  decide +kernel

theorem test_round_phases_odd :
    after (exec .phR1 { roundState with hctx := ⟨true, []⟩, i := 1 }) (fun t => t.hctx.msg == [0xA1]) = true ∧
    after (exec .phR2 { roundState with hctx := ⟨true, []⟩, i := 1 }) (fun t => t.hctx.msg == [0xB2]) = true ∧
    after (exec .phR3 { roundState with hctx := ⟨true, []⟩, i := 1 }) (fun t => t.hctx.msg == [0xA1]) = true ∧
    after (exec .phR4 { roundState with hctx := ⟨true, []⟩, i := 1 }) (fun t => t.hctx.msg == c32) = true := by
  decide +kernel

theorem test_phase_r5 :
    after (exec .phR5 { opened .r5 [] with i := 1 }) (fun t => t.ph == .rt && t.i == 2 && t.bufC.read 31 == 0x55) = true := by
  decide +kernel

/-- 44_mcf_encoder.md R294 at the two ends of the loop. -/
theorem test_phase_e0 :
    after (exec .phE0 { atPhase .e0 with g := 9 }) (fun t => t.ph == .e0 && t.g == 10) = true ∧
    after (exec .phE0 { atPhase .e0 with g := 10 }) (fun t => t.ph == .done && t.g == 10 && t.enc.read 42 == 0x2E) = true ∧
    after (exec .phE0 { atPhase .e0 with alg := 6, g := 20 }) (fun t => t.ph == .e0 && t.g == 21) = true ∧
    after (exec .phE0 { atPhase .e0 with alg := 6, g := 21 }) (fun t => t.ph == .done && t.enc.read 85 == 0x2E) = true := by
  decide +kernel

/-! ## Fetch, and the host's interface to it -/

/-- 70_reset_and_hazards.md R432: after reset the sequencer does nothing. -/
theorem test_reset_stutters : step State.reset = .next State.reset := rfl

theorem test_table_word_runs :
    step (State.reset.withFetchWord 8 0x10) = .next { State.reset with hctx := ⟨true, []⟩ } := rfl

theorem test_reset_event :
    after (step { atPhase .r2 with agenda := [.reset, .seq] }) (fun t => t.ph == .idle && t.agenda == [.seq]) = true := by
  decide +kernel

/-! ## Functions and host software -/

/-- 95_test_vectors.md, family 44: the bytes 00 01 ... 1f and 00 01 ... 3f. -/
theorem test_encode_text :
    encodeText 5 ((List.range 32).map (BitVec.ofNat 8)) = ascii "Ic..92E30M/1Lok.CE.43Yl1O.V/FQk46kV2RAF0Sw/" ∧
    encodeText 6 ((List.range 64).map (BitVec.ofNat 8)) =
      ascii "eI/./gW3L6.9hUl.2sG4OIk9kgV/5215RUUAnsF08En5UgEBq201BQX6Xs.CtEm1EcH7a2lCwQW2Ho18dEVDz." := by decide +kernel

/-- T9 and T10: the raw digests of (`p`, `s`, 0, 5) and (`p`, `s`, 1, 5), and their step counts. -/
theorem test_job_functions :
    (Job.mk 5 0 [0x73] [0x70]).digest = bytesBE 32 0x082b5d941df256b34222af442609e4404e1b433525c0b96c43123bc19ce65ea6 ∧
    (Job.mk 5 1 [0x73] [0x70]).digest = bytesBE 32 0x6cdc704bfc665800963461d452b48617b5718c8a0ab64c52f2fdfc1a7492c760 ∧
    (Job.mk 5 0 [0x73] [0x70]).steps = 58 ∧ (Job.mk 5 1 [0x73] [0x70]).steps = 64 := by decide +kernel

/-- 92_eei_decisions.md D18: a text password is its UTF-8 bytes. -/
theorem test_password_bytes : passwordBytes "pä" = [0x70, 0xC3, 0xA4] := by decide +kernel

/-- 46_parser_facade.md R359, R352 and R366. -/
theorem test_parse_edges :
    parse (fun _ => []) (ascii "$5$abc$def") = .error .invalidSaltString ∧
    parse (fun _ => []) (ascii "$$5$$salt") = .ok ⟨5, 5000, ascii "salt", false⟩ ∧
    parse (fun _ => []) (ascii "$5$rounds=$salt") = .error .outsidePrecondition ∧
    (Parameters.mk 5 1400 (ascii "x") false).outputPrefix = ascii "$5$rounds=1400$x" := by decide +kernel

/-- R367, R368. -/
theorem test_compare :
    beforeLastDollar (ascii "$5$salt$abc") = ascii "$5$salt" ∧ sameBytes (ascii "ab") (ascii "ab") = true ∧
    sameBytes (ascii "ab") (ascii "ac") = false ∧ sameBytes (ascii "ab") (ascii "abc") = false := by decide +kernel

/-! ## Witnesses: for each statement with hypotheses, concrete values that meet all of them -/

theorem witness_DecodeReadsEveryEncoding :
    (Instr.cmdReserved 0x03).wf = true ∧ (Instr.wr .reservedF 0xFFFFFFFF 0xFFFFFFFF).wf = true := by decide

/-- A word of each kind of access, a read with a reply among them, and a phase. -/
theorem witness_EncodingIsTheDecodedWord :
    decode .ha (0x3 * 2 + 5 * 2 ^ 37) = .instr (.rd .alg 0) ∧ decode .ha 1 = .instr (.wr .ctrl 0 0) ∧
    decode .phase 0x1D = .instr .phErr := by decide +kernel

theorem witness_ReservedEncodingsAreRefused :
    { atPhase .idle with agenda := [.word .u 0x26] }.agenda = .word .u 0x26 :: [] ∧
    decode .u 0x26 = .illegal (.reservedMicroOp 0x26) ∧
    (0x26 : Nat) ∉ [0x00, 0x01, 0x10, 0x20, 0x21, 0x22, 0x23, 0x24, 0x25, 0x2A, 0x32, 0x35, 0x36, 0x43, 0x44] ∧
    (0x55 : Nat) ∉ [0x52, 0x53, 0x54] := by decide

theorem witness_StepRunsTheFetchedInstruction :
    fetch (atPhase .b0) = some ((.phase, 0x02), atPhase .b0) ∧ decode .phase 0x02 = .instr .phB0 ∧
    { atPhase .b0 with agenda := [.poll] }.busy = true ∧ { atPhase .done with agenda := [.poll] }.busy = false :=
  ⟨rfl, by decide, by decide, by decide⟩

theorem witness_StepPerformsPhaseOrPresentedInstruction :
    (Instr.rd .status 0).wf = true ∧ (atPhase .b0).agenda = [] ∧
    { atPhase .b0 with agenda := [.poll] }.busy = true ∧ { atPhase .err with agenda := [.poll] }.busy = false := by decide

theorem witness_TableWordRunsNext : decodeTableWord 8 0x2A = some .hupdn ∧ decodeTableWord 69 1 = some (.wr .ctrl 0 0) := by
  decide +kernel

/-- An open context with both lengths at their bounds. -/
def fullState : State :=
  { opened .a1 [5] with plen := 128, slen := 16 }

theorem witness_HnewOpensAnEmptyMessage : (atPhase .b0).hctx.isOpen = false ∧ fullState.hctx.isOpen = true := by decide

theorem witness_WholeFeedsAppendTheirBytes :
    fullState.hctx.isOpen = true ∧ fullState.plen.toNat ≤ fullState.pwMax ∧ fullState.slen.toNat ≤ 16 := by decide

theorem witness_PartialFeedAppendsAPrefixOfB :
    { fullState with cnt := 31 }.hctx.isOpen = true ∧ { fullState with cnt := 31 }.cnt.toNat < digestSize 5 ∧
    { fullState with alg := 6, cnt := 63 }.cnt.toNat < digestSize 6 := by decide

theorem witness_HashPortRequiresAnOpenContext :
    (atPhase .a3).hctx.isOpen = false ∧ { fullState with cnt := 32 }.hctx.isOpen = true ∧
    digestSize { fullState with cnt := 32 }.alg ≤ { fullState with cnt := 32 }.cnt.toNat := by decide

/-- One byte more than each buffer has. -/
theorem witness_LengthsBeyondABufferFault :
    { fullState with plen := 129 }.pwMax < { fullState with plen := 129 }.plen.toNat ∧
    16 < { fullState with slen := 17 }.slen.toNat ∧ fullState.hctx.isOpen = true := by decide

theorem witness_FinaliseWritesTheDigest : (opened .b4 [1]).hctx.isOpen = true := by decide

theorem witness_FillRepeatsTheDigestInT :
    fullState.plen.toNat ≤ fullState.pwMax ∧ fullState.slen.toNat ≤ 16 := by decide

theorem witness_ChkClearsTheInternalState :
    (fullState.alg = 5 ∨ fullState.alg = 6) ∧ fullState.slen.toNat ≤ 16 ∧ fullState.plen.toNat ≤ fullState.pwMax := by
  decide

/-- Each error alone, at the first value that raises it, and both together. -/
theorem witness_ChkRaisesTheErrorsInOrder :
    ((7 : Byte) ≠ 5 ∧ (7 : Byte) ≠ 6) ∧ 16 < { fullState with slen := 17 }.slen.toNat ∧
    fullState.pwMax < { fullState with plen := 129 }.plen.toNat ∧
    ({ fullState with alg := 4, slen := 17 }.alg ≠ 5 ∧ { fullState with alg := 4, slen := 17 }.alg ≠ 6) := by decide

/-- One state and instruction for each cause: the algorithm, each length at its first value that is too large, and the reserved
commands next to START and CLEAR. -/
theorem witness_ErrorEntryAsTheHostSeesIt :
    (Instr.phChk ∈ [Instr.chk, .phChk] ∧ { atPhase .chk with alg := 4 }.alg ≠ 5 ∧ { atPhase .chk with alg := 7 }.alg ≠ 6) ∧
    (16 < { atPhase .chk with slen := 17 }.slen.toNat ∧ (atPhase .chk).alg = 5) ∧
    { atPhase .chk with plen := 129 }.pwMax < { atPhase .chk with plen := 129 }.plen.toNat ∧
    ((atPhase .done).ph = .done ∧ (0x00 : Byte) ≠ 0x01 ∧ (0x03 : Byte) ≠ 0x02 ∧
      (0x103 : Word32).toNat % 256 = (0x03 : Byte).toNat) := by decide

/-- One run for each case of the conclusion. -/
theorem witness_ErrChangesOnlyByStartClearOrErrorEntry :
    (∃ t, exec .nop { atPhase .err with err := 2 } = .next t ∧ t.err = 2) ∧
    (∃ t, exec .start { atPhase .err with err := 2 } = .next t ∧ t.err = 0) ∧
    (∃ t, exec .clear { atPhase .err with err := 2 } = .next t ∧ t.err = 0) ∧
    (∃ t, exec .phChk { atPhase .chk with alg := 4 } = .next t ∧ t.err = 1) ∧
    ∃ t, exec (.cmdReserved 0) { atPhase .err with err := 2 } = .next t ∧ t.err = 3 :=
  ⟨⟨_, rfl, rfl⟩, ⟨_, rfl, rfl⟩, ⟨_, rfl, rfl⟩, ⟨_, rfl, rfl⟩, ⟨_, rfl, rfl⟩⟩

/-- The first and the last full group of each algorithm, and the groups after them. -/
theorem witness_FullGroupWritesFourCharacters :
    ((atPhase .e0).alg = 5 ∧ (atPhase .e0).g.toNat < 10) ∧ { atPhase .e0 with g := 9 }.g.toNat < 10 ∧
    ({ atPhase .e0 with alg := 6, g := 20 }.alg = 6 ∧ { atPhase .e0 with alg := 6, g := 20 }.g.toNat < 21) ∧
    10 ≤ { atPhase .e0 with g := 10 }.g.toNat ∧ 21 ≤ { atPhase .e0 with alg := 6, g := 21 }.g.toNat := by decide

theorem witness_EncodedTextDeterminesTheDigest :
    (List.replicate 32 (0 : Byte)).length = digestSize 5 ∧ (List.replicate 64 (0 : Byte)).length = digestSize 6 := by
  decide

/-- The last index of `SALT` and of `PW` and the first beyond each. -/
theorem witness_HostWriteStoresTheValue :
    (atPhase .idle).busy = false ∧ (atPhase .done).busy = false ∧ (15 : Word32).toNat < 16 ∧ 16 ≤ (16 : Word32).toNat ∧
    (127 : Word32).toNat < (atPhase .idle).pwMax ∧ (atPhase .idle).pwMax ≤ (128 : Word32).toNat := by decide

theorem witness_WritesWhileBusyAreIgnored :
    (atPhase .chk).ph ≠ .idle ∧ (atPhase .chk).ph ≠ .done ∧ (atPhase .chk).ph ≠ .err := by decide

theorem witness_StartBeginsAJob :
    ((atPhase .done).ph = .idle ∨ (atPhase .done).ph = .done ∨ (atPhase .done).ph = .err) ∧
    (0xFFFFFF01 : Word32).toNat % 256 = 0x01 := by decide

theorem witness_ClearSetsTheResetValues :
    ((atPhase .err).ph = .idle ∨ (atPhase .err).ph = .done ∨ (atPhase .err).ph = .err) ∧
    (0x102 : Word32).toNat % 256 = 0x02 := by decide

theorem witness_ReservedCommandRaisesBadCommand :
    ((atPhase .idle).ph = .idle ∨ (atPhase .idle).ph = .done ∨ (atPhase .idle).ph = .err) ∧ (0x00 : Byte) ≠ 0x01 ∧
    (0x00 : Byte) ≠ 0x02 ∧ (0x100 : Word32).toNat % 256 = (0x00 : Byte).toNat := by decide

theorem witness_ResetLeavesTheResetValues :
    { atPhase .r1 with agenda := [.reset, .poll] }.agenda = .reset :: [.poll] := by decide

theorem witness_JobRegistersAreWrittenByTheHostAlone :
    Instr.phB0.format ≠ .ha ∧ Instr.phB0.format ≠ .cmd ∧ ∃ t, exec .phB0 (atPhase .b0) = .next t :=
  ⟨by decide, by decide, _, rfl⟩

/-- Two states in DONE that differ in hidden state. -/
theorem witness_HostReadsDependOnVisibleStateOnly :
    (atPhase .done).status = { atPhase .done with cnt := 7, bufB := ramp 3 }.status ∧ (atPhase .done).status = 2 ∧
    (∀ k < 64, (atPhase .done).bufC.read k = { atPhase .done with cnt := 7, bufB := ramp 3 }.bufC.read k) ∧
    ∀ k < 86, (atPhase .done).enc.read k = { atPhase .done with cnt := 7, bufB := ramp 3 }.enc.read k :=
  ⟨by decide, by decide, fun _ _ => rfl, fun _ _ => rfl⟩

theorem witness_OpeningPhases : (atPhase .ds0).hctx.isOpen = false ∧ fullState.hctx.isOpen = true := by decide

theorem witness_PasswordAndSaltFeedPhases :
    fullState.hctx.isOpen = true ∧ fullState.plen.toNat ≤ fullState.pwMax ∧ fullState.slen.toNat ≤ 16 := by decide

theorem witness_FinalisingPhases : (opened .r5 [1]).hctx.isOpen = true := by decide

theorem witness_FillPhases : fullState.plen.toNat ≤ fullState.pwMax ∧ fullState.slen.toNat ≤ 16 := by decide

/-- `CNT` at both sides of `DSZ`, at 0, at an odd value and at an even one. -/
theorem witness_CopyAndBitLoopPhases :
    fullState.hctx.isOpen = true ∧ digestSize fullState.alg ≤ { fullState with cnt := 32 }.cnt.toNat ∧
    { fullState with cnt := 31 }.cnt.toNat < digestSize fullState.alg ∧ fullState.cnt = 0 ∧
    { fullState with cnt := 1 }.cnt.toNat % 2 = 1 ∧ { fullState with cnt := 2 }.cnt ≠ 0 ∧
    { fullState with cnt := 2 }.cnt.toNat % 2 = 0 ∧ fullState.plen.toNat ≤ fullState.pwMax := by decide

theorem witness_RepetitionLoopPhases :
    fullState.cnt = 0 ∧ fullState.hctx.isOpen = true ∧ { fullState with cnt := 1 }.cnt ≠ 0 ∧
    fullState.plen.toNat ≤ fullState.pwMax ∧ fullState.slen.toNat ≤ 16 := by decide

/-- `I` = `ROUNDS` and not; `I` = 0 (all remainders 0), 1 (none) and 21 (odd, both other remainders 0). -/
theorem witness_RoundPhases :
    fullState.plen.toNat ≤ fullState.pwMax ∧ fullState.slen.toNat ≤ 16 ∧ fullState.hctx.isOpen = true ∧
    { fullState with i := 2 }.i = fullState.rounds ∧ { fullState with i := 1 }.i ≠ fullState.rounds ∧
    { atPhase .rt with i := 1 }.i ≠ (atPhase .rt).rounds ∧ (atPhase .rt).hctx.isOpen = false ∧
    { fullState with i := 21 }.i.toNat % 3 = 0 ∧ { fullState with i := 21 }.i.toNat % 7 = 0 ∧
    { fullState with i := 21 }.i.toNat % 2 = 1 ∧ fullState.i.toNat % 2 = 0 ∧
    { fullState with i := 1 }.i.toNat % 3 ≠ 0 ∧ { fullState with i := 1 }.i.toNat % 7 ≠ 0 := by decide

theorem witness_EncoderPhase :
    { atPhase .e0 with g := 9 }.g.toNat < 10 ∧ 10 ≤ { atPhase .e0 with g := 10 }.g.toNat ∧ (atPhase .e0).alg = 5 ∧
    { atPhase .e0 with alg := 6, g := 20 }.g.toNat < 21 ∧ 21 ≤ { atPhase .e0 with alg := 6, g := 21 }.g.toNat ∧
    { atPhase .e0 with alg := 6, g := 21 }.alg = 6 := by decide

theorem witness_PhasesFollowTheMicroprogram :
    (atPhase .a3).ph ≠ .chk ∧ issuedBy (atPhase .a3) = some .hupdn ∧
    issuedBy { atPhase .a3 with cnt := 32 } = some .hupdB := by decide

theorem witness_RoundTypesHashTheirMessages :
    roundState.plen.toNat ≤ roundState.pwMax ∧ roundState.slen.toNat ≤ 16 ∧ roundState.hctx.isOpen = false ∧
    fullState.hctx.isOpen = true := by decide

theorem witness_SixStepsAreTheRoundType :
    roundState.ph = .rt ∧ roundState.agenda = [] ∧ roundState.i ≠ roundState.rounds ∧ jobError roundState = none := by
  decide

/-- A running state with bytes in its buffers: phase A3 of a job, with a host access to come. -/
def runningState : State :=
  { opened .a3 [0x70, 0x73] with cnt := 1, bufB := ramp 32, agenda := [.poll, wrTurn .ctrl 0 2] }

theorem runningState_inv : Inv runningState where
  buffers x := by cases x <;> decide
  pwMax_le := by decide
  context := by decide
  closed_empty := by decide
  job := by decide
  err_range := by decide
  err_iff := by decide
  cnt_plen := by decide
  cnt_salt := by decide
  round_test := by decide
  round_open := by decide
  round_end := by decide
  group_zero := by decide
  group_lt := by decide
  text := by decide
  quiet := by decide
  agenda := by decide +kernel

theorem witness_EveryStepKeepsInv : Inv runningState ∧ ∃ t, step runningState = .next t :=
  ⟨runningState_inv, _, rfl⟩

theorem witness_InvStatesGoOn : Inv runningState := runningState_inv

theorem witness_SetupComputesItsFunctions :
    (atPhase .chk).ph = .chk ∧ (atPhase .chk).agenda = [] ∧ jobError (atPhase .chk) = none := by decide

theorem witness_RoundLoopComputesTheChain :
    (atPhase .rt).ph = .rt ∧ (atPhase .rt).agenda = [] ∧ (atPhase .rt).i = 0 ∧ (atPhase .rt).hctx = ⟨false, []⟩ ∧
    jobError (atPhase .rt) = none := by decide

theorem witness_EncoderWritesTheText :
    { atPhase .e0 with bufC := ramp 64 }.ph = .e0 ∧ (atPhase .e0).agenda = [] ∧ (atPhase .e0).g = 0 ∧
    (atPhase .e0).enc = [] ∧ ((atPhase .e0).alg = 5 ∨ (atPhase .e0).alg = 6) := by decide

theorem witness_JobReachesDoneWithItsDigestAndText :
    (atPhase .chk).ph = .chk ∧ (atPhase .chk).agenda = [] ∧ jobError (atPhase .chk) = none := by decide

/-- The same job with other bytes left beyond its lengths and in the internal buffers. -/
theorem witness_JobRunsDependOnTheJobAlone :
    (atPhase .chk).job = { atPhase .chk with pw := [(0, 0x70), (9, 1)], bufT := ramp 5, g := 3 }.job ∧
    (atPhase .chk).agenda = [] ∧ ∃ t, Sys2Proof.core.run (0 + 1) (atPhase .chk) = .next t :=
  ⟨by decide, by decide, _, rfl⟩

theorem witness_HostProtocolReturnsDigestAndText :
    ((atPhase .done).ph = .idle ∨ (atPhase .done).ph = .done ∨ (atPhase .done).ph = .err) ∧
    { atPhase .done with agenda := jobProtocol ⟨5, 2, [0x73], [0x70]⟩ }.agenda = jobProtocol ⟨5, 2, [0x73], [0x70]⟩ ∧
    (Job.mk 5 2 [0x73] [0x70]).pw.length ≤ (atPhase .done).pwMax ∧ (atPhase .done).pwMax ≤ 2 ^ 30 ∧
    { atPhase .done with agenda := failedJobProtocol ⟨4, 2, [], []⟩ }.agenda = failedJobProtocol ⟨4, 2, [], []⟩ ∧
    (atPhase .done).pwMax < (List.replicate 129 (0 : Byte)).length ∧
    16 < (List.replicate 17 (0x2E : Byte)).length % 256 :=
  ⟨by decide, rfl, by decide, by decide, rfl, by rw [List.length_replicate]; decide, by decide⟩

theorem witness_WorkedParses :
    ∀ n, (List.replicate n (0x2E : Byte)).length = n ∧ ∀ c ∈ List.replicate n (0x2E : Byte), c ∈ alpha := by
  intro n
  refine ⟨List.length_replicate, fun c hc => ?_⟩
  rw [(List.mem_replicate.1 hc).2]
  decide

theorem witness_ParsedParametersKeepTheInvariants :
    parse (fun _ => []) (ascii "$5$rounds=10$roundstoolow") = .ok ⟨5, 1000, ascii "roundstoolow", true⟩ := by
  decide +kernel

/-- A host with a block of `PW_MAX` = 1, whose default algorithm is unsupported and whose generator answers dots. -/
def smallHost : HostSide where
  generate n := List.replicate n 0x2E
  defaultAlg := 7
  pwMax := 1

/-- Each case: the parser's error, parameters of a supported algorithm with a salt, a password at and beyond `PW_MAX`, an
unsupported default algorithm. -/
theorem witness_HashVerifies :
    smallHost.pwMax ≤ 2 ^ 30 ∧ smallHost.parameters (.mcf (ascii "$7$x")) = .error .unsupportedAlgorithm ∧
    smallHost.parameters (.mcf (ascii "$6$x")) = .ok ⟨6, 5000, ascii "x", false⟩ ∧ ascii "x" ≠ [] ∧
    (ascii "p").length ≤ smallHost.pwMax ∧ smallHost.pwMax < (ascii "pq").length ∧
    smallHost.parameters .default = .ok ⟨7, 5000, List.replicate 16 0x2E, false⟩ := by decide +kernel

/-- 60_exceptions.md R395 and R394 through the protocol: the code that `hash` gets. -/
theorem test_run_job_errors :
    runJob 1 ⟨5, 0, [0x73], [0x70, 0x71]⟩ = .failed 0x02 ∧ runJob 1 ⟨7, 0, [0x73], [0x70]⟩ = .failed 0x01 := by
  decide +kernel

end Sys2Proof.Tests
end

section
/-! SUPPORT. The range condition of feeds and fills (00_scope.md R15): a length beyond its buffer is a fault. -/
namespace Sys2Proof.Machine

theorem fits_eq_false_iff {n size : Nat} : fits n size = false ↔ size < n := by
  rw [← Bool.not_eq_true, fits_iff, Nat.not_le]

theorem feedWhole_of_outOfRange {x : Buf} {s : State} (ho : s.hctx.isOpen = true) (hx : s.wholeInRange x = false) :
    feedWhole x s = .fault (.outsideBuffer x) := by
  simp [feedWhole, ho, hx]

theorem fillFromT_of_outOfRange {x : Buf} {s : State} (hx : s.wholeInRange x = false) :
    fillFromT x s = .fault (.outsideBuffer x) := by
  simp [fillFromT, hx]

/-- Settles O12: the violated range condition is the password's or the salt's, and it stops every access of that length. -/
theorem lengthsBeyondABufferFault : Obligations.LengthsBeyondABufferFault := by
  intro s
  constructor
  · intro hlen
    have hrange : fits s.plen.toNat s.pwMax = false := fits_eq_false_iff.2 hlen
    exact ⟨fillFromT_of_outOfRange hrange,
      fun ho => ⟨feedWhole_of_outOfRange ho hrange, feedWhole_of_outOfRange ho hrange⟩⟩
  · intro hlen
    have hrange : fits s.slen.toNat 16 = false := fits_eq_false_iff.2 hlen
    exact ⟨fillFromT_of_outOfRange hrange,
      fun ho => ⟨feedWhole_of_outOfRange ho hrange, feedWhole_of_outOfRange ho hrange⟩⟩

end Sys2Proof.Machine
end

section
/-! SUPPORT. Noninterference of jobs (00_scope.md R3, 10_state.md R49, 30_encoding.md R91): the sequencer runs alike in two
states that differ in the host's replies and in the bytes of `SALT` and `PW` beyond the lengths. -/
namespace Sys2Proof.Machine

/-! ## The second state of the comparison -/

/-- `s` with the bytes of `SALT` and `PW` and the host's replies of `r`. -/
def State.withBytesOf (s r : State) : State :=
  { s with salt := r.salt, pw := r.pw, replies := r.replies }

theorem job_withBytesOf_iff {s r : State} :
    (s.withBytesOf r).job = s.job ↔
      r.salt.readBytes 0 s.slen.toNat = s.salt.readBytes 0 s.slen.toNat ∧
      r.pw.readBytes 0 s.plen.toNat = s.pw.readBytes 0 s.plen.toNat := by
  simp [State.job, State.withBytesOf]

/-- Within its feed length a buffer holds the same bytes in both states. -/
theorem readBytes_feedLen_withBytesOf {s r : State} (hjob : (s.withBytesOf r).job = s.job) (x : Buf) :
    ((s.withBytesOf r).buf x).readBytes 0 (s.feedLen x) = (s.buf x).readBytes 0 (s.feedLen x) := by
  obtain ⟨hsalt, hpw⟩ := job_withBytesOf_iff.1 hjob
  cases x with
  | pw => exact hpw
  | salt => exact hsalt
  | b | p | s | c | t | enc => rfl

theorem feedLen_withBytesOf (s r : State) (x : Buf) : (s.withBytesOf r).feedLen x = s.feedLen x := by
  cases x <;> rfl

theorem wholeInRange_withBytesOf (s r : State) (x : Buf) : (s.withBytesOf r).wholeInRange x = s.wholeInRange x := by
  cases x <;> rfl

/-- A buffer that the host does not write: any but `PW` and `SALT`. -/
def isInternal : Buf → Bool
  | .pw | .salt => false
  | .b | .p | .s | .c | .t | .enc => true

theorem buf_withBytesOf {x : Buf} (hx : isInternal x = true) (s r : State) : (s.withBytesOf r).buf x = s.buf x := by
  cases x with
  | pw | salt => cases hx
  | b | p | s | c | t | enc => rfl

theorem setBuf_withBytesOf {x : Buf} (hx : isInternal x = true) (s r : State) (m : Memory) :
    (s.withBytesOf r).setBuf x m = (s.setBuf x m).withBytesOf r := by
  cases x with
  | pw | salt => cases hx
  | b | p | s | c | t | enc => rfl

/-! ## What the sequencer leaves alone -/

/-- What a job and the outside world hand to the sequencer, and no phase writes. -/
structure Inputs where
  alg : Byte
  rounds : Word32
  slen : Byte
  plen : Word32
  salt : Memory
  pw : Memory
  replies : List Word32
  agenda : List Turn

def State.inputs (s : State) : Inputs :=
  ⟨s.alg, s.rounds, s.slen, s.plen, s.salt, s.pw, s.replies, s.agenda⟩

theorem job_eq_of_inputs_eq {s t : State} (h : t.inputs = s.inputs) : t.job = s.job := by
  simp only [State.inputs, Inputs.mk.injEq] at h
  simp [State.job, h]

theorem job_withBytesOf_eq_of_inputs_eq {s t : State} (h : t.inputs = s.inputs) (r : State) :
    (t.withBytesOf r).job = (s.withBytesOf r).job := by
  simp only [State.inputs, Inputs.mk.injEq] at h
  simp [State.job, State.withBytesOf, h]

theorem inputs_setBuf {x : Buf} (hx : isInternal x = true) (s : State) (m : Memory) :
    (s.setBuf x m).inputs = s.inputs := by
  cases x with
  | pw | salt => cases hx
  | b | p | s | c | t | enc => rfl

/-! ## Answers alike -/

/-- Where `a` goes on from `s`, it keeps the inputs, and `a'` goes on to the same state with the bytes of `r`. -/
def Alike (r s : State) (a a' : Answer) : Prop :=
  ∀ t, a = .next t → a' = .next (t.withBytesOf r) ∧ t.inputs = s.inputs

theorem Alike.next {r s t : State} (h : t.inputs = s.inputs) : Alike r s (.next t) (.next (t.withBytesOf r)) := by
  rintro _ ⟨⟩
  exact ⟨rfl, h⟩

theorem Alike.ite {r s : State} {c : Prop} [Decidable c] {a a' b b' : Answer} (ha : Alike r s a a') (hb : Alike r s b b') :
    Alike r s (if c then a else b) (if c then a' else b') := by
  split
  · exact ha
  · exact hb

theorem Alike.andThen {r s : State} {a a' : Answer} {k : State → Answer} (ha : Alike r s a a')
    (hk : ∀ t, t.inputs = s.inputs → Alike r t (k t) (k (t.withBytesOf r))) :
    Alike r s (andThen a k) (Machine.andThen a' k) := by
  intro u hu
  obtain ⟨t, hat, htu⟩ := andThen_next.1 hu
  obtain ⟨hat', hst⟩ := ha t hat
  obtain ⟨htu', htu_in⟩ := hk t hst u htu
  exact ⟨andThen_next.2 ⟨_, hat', htu'⟩, htu_in.trans hst⟩

/-- A phase runs alike when its micro-operation does and its writes of counters and `PH` do. -/
theorem Alike.issue {r s : State} {u : State → Answer} {finish : State → State}
    (hu : Alike r s (u s) (u (s.withBytesOf r)))
    (hfinish : ∀ t, Alike r t (.next (finish t)) (.next (finish (t.withBytesOf r)))) :
    Alike r s (issue u finish s) (issue u finish (s.withBytesOf r)) :=
  hu.andThen fun t _ => hfinish t

theorem goto_alike (r : State) (p : Phase) (s : State) :
    Alike r s (.next (goto p s)) (.next (goto p (s.withBytesOf r))) :=
  .next rfl

theorem goto_setCnt_alike (r : State) (p : Phase) (v : Word32) (s : State) :
    Alike r s (.next (goto p (setCnt v s))) (.next (goto p (setCnt v (s.withBytesOf r)))) :=
  .next rfl

theorem goto_setI_alike (r : State) (p : Phase) (v : Word32) (s : State) :
    Alike r s (.next (goto p (setI v s))) (.next (goto p (setI v (s.withBytesOf r)))) :=
  .next rfl

theorem goto_setG_alike (r : State) (p : Phase) (v : BitVec 5) (s : State) :
    Alike r s (.next (goto p (setG v s))) (.next (goto p (setG v (s.withBytesOf r)))) :=
  .next rfl

/-! ## The micro-operations -/

theorem nop_alike (r s : State) : Alike r s (.next s) (.next (s.withBytesOf r)) := .next rfl

theorem openContext_alike (r s : State) : Alike r s (openContext s) (openContext (s.withBytesOf r)) := by
  intro t ht
  obtain ⟨hclosed, rfl⟩ := openContext_next.1 ht
  exact ⟨openContext_of_closed hclosed, rfl⟩

/-- The one place where the host's bytes are read: a feed of `PW` or `SALT` reads the job's bytes alone. -/
theorem feedWhole_alike {r s : State} (hjob : (s.withBytesOf r).job = s.job) (x : Buf) :
    Alike r s (feedWhole x s) (feedWhole x (s.withBytesOf r)) := by
  intro t ht
  obtain ⟨hopen, hrange, rfl⟩ := feedWhole_next.1 ht
  refine ⟨feedWhole_next.2 ⟨hopen, (wholeInRange_withBytesOf s r x).trans hrange, ?_⟩, rfl⟩
  rw [feedLen_withBytesOf, appendBytes, appendBytes, readBytes_feedLen_withBytesOf hjob]
  rfl

theorem feedPartial_alike (r s : State) : Alike r s (feedPartial s) (feedPartial (s.withBytesOf r)) := by
  intro t ht
  obtain ⟨hopen, hcge, rfl⟩ := feedPartial_next.1 ht
  exact ⟨feedPartial_next.2 ⟨hopen, hcge, rfl⟩, rfl⟩

theorem hashFinish_alike {x : Buf} (hx : isInternal x = true) (r s : State) :
    Alike r s (hashFinish x s) (hashFinish x (s.withBytesOf r)) := by
  intro t ht
  obtain ⟨hopen, rfl⟩ := hashFinish_next.1 ht
  refine ⟨hashFinish_next.2 ⟨hopen, ?_⟩, inputs_setBuf hx s _⟩
  rw [setBuf_withBytesOf hx, buf_withBytesOf hx]
  rfl

theorem fillFromT_alike {x : Buf} (hx : isInternal x = true) (r s : State) :
    Alike r s (fillFromT x s) (fillFromT x (s.withBytesOf r)) := by
  intro t ht
  obtain ⟨hrange, rfl⟩ := fillFromT_next.1 ht
  refine ⟨fillFromT_next.2 ⟨(wholeInRange_withBytesOf s r x).trans hrange, ?_⟩, inputs_setBuf hx s _⟩
  rw [setBuf_withBytesOf hx, buf_withBytesOf hx, feedLen_withBytesOf]
  rfl

theorem emitGroup_alike (r : State) (off n : Nat) (b0 b1 b2 : Byte) (s : State) :
    Alike r s (.next (emitGroup off n b0 b1 b2 s)) (.next (emitGroup off n b0 b1 b2 (s.withBytesOf r))) :=
  .next rfl

theorem encodeFullGroup_alike (r s : State) : Alike r s (encodeFullGroup s) (encodeFullGroup (s.withBytesOf r)) := by
  intro t ht
  obtain ⟨hfull, i0, i1, i2, h0, h1, h2, rfl⟩ := encodeFullGroup_next.1 ht
  exact ⟨encodeFullGroup_next.2 ⟨hfull, i0, i1, i2, h0, h1, h2, rfl⟩, rfl⟩

theorem checkJob_goto_alike (r : State) (p : Phase) (s : State) :
    Alike r s (checkJob (goto p) s) (checkJob (goto p) (s.withBytesOf r)) := by
  intro t ht
  obtain ⟨e, he, rfl⟩ | ⟨hnone, rfl⟩ := checkJob_next.1 ht
  · exact ⟨checkJob_next.2 (.inl ⟨e, he, rfl⟩), rfl⟩
  · exact ⟨checkJob_next.2 (.inr ⟨hnone, rfl⟩), rfl⟩

/-! ## Phases, steps and runs -/

/-- Every phase runs alike: its tests look at internal state and job registers only. -/
theorem exec_phaseInstr_alike {r s : State} (hjob : (s.withBytesOf r).job = s.job) (p : Phase) :
    Alike r s (exec (phaseInstr p) s) (exec (phaseInstr p) (s.withBytesOf r)) := by
  have feed (x : Buf) := feedWhole_alike hjob x
  cases p with
  | idle | done | err => exact nop_alike r s
  | chk => exact checkJob_goto_alike r .b0 s
  | b0 | a0 => exact .issue (openContext_alike r s) (goto_alike r _)
  | dp0 | ds0 => exact .issue (openContext_alike r s) (goto_setCnt_alike r _ _)
  | b1 | b3 | a1 => exact .issue (feed .pw) (goto_alike r _)
  | b2 => exact .issue (feed .salt) (goto_alike r _)
  | a2 => exact .issue (feed .salt) (goto_setCnt_alike r _ _)
  | b4 => exact .issue (hashFinish_alike (x := .b) rfl r s) (goto_alike r _)
  | a5 => exact .issue (hashFinish_alike (x := .c) rfl r s) (goto_alike r _)
  | dp2 | ds2 => exact .issue (hashFinish_alike (x := .t) rfl r s) (goto_alike r _)
  | r5 => exact .issue (hashFinish_alike (x := .c) rfl r s) (goto_setI_alike r _ _)
  | p0 => exact .issue (fillFromT_alike (x := .p) rfl r s) (goto_alike r _)
  | s0 => exact .issue (fillFromT_alike (x := .s) rfl r s) (goto_setI_alike r _ _)
  | a3 =>
    exact .ite (.issue (feed .b) (goto_setCnt_alike r _ _)) (.issue (feedPartial_alike r s) (goto_setCnt_alike r _ _))
  | a4 =>
    exact .ite (.issue (nop_alike r s) (goto_alike r _))
      (.ite (.issue (feed .b) (goto_setCnt_alike r _ _)) (.issue (feed .pw) (goto_setCnt_alike r _ _)))
  | dp1 => exact .ite (.issue (nop_alike r s) (goto_alike r _)) (.issue (feed .pw) (goto_setCnt_alike r _ _))
  | ds1 => exact .ite (.issue (nop_alike r s) (goto_alike r _)) (.issue (feed .salt) (goto_setCnt_alike r _ _))
  | rt => exact .ite (.issue (nop_alike r s) (goto_alike r _)) (.issue (openContext_alike r s) (goto_alike r _))
  | r1 => exact .ite (.issue (feed .p) (goto_alike r _)) (.issue (feed .c) (goto_alike r _))
  | r2 => exact .ite (.issue (feed .s) (goto_alike r _)) (.issue (nop_alike r s) (goto_alike r _))
  | r3 => exact .ite (.issue (feed .p) (goto_alike r _)) (.issue (nop_alike r s) (goto_alike r _))
  | r4 => exact .ite (.issue (feed .c) (goto_alike r _)) (.issue (feed .p) (goto_alike r _))
  | e0 =>
    exact .ite (.issue (encodeFullGroup_alike r s) (goto_setG_alike r _ _))
      (.ite (.issue (emitGroup_alike r _ _ _ _ _ s) (goto_alike r _))
        (.issue (emitGroup_alike r _ _ _ _ _ s) (goto_alike r _)))

theorem decode_phase_code (p : Phase) : decode .phase p.code.toNat = .instr (phaseInstr p) := by
  cases p <;> rfl

/-- Without turns of the host the sequencer performs the phase in `PH`. -/
theorem step_of_agenda_nil {s : State} (ha : s.agenda = []) : step s = exec (phaseInstr s.ph) s := by
  simp [step, fetch, ha, sequencerWord, decode_phase_code]

theorem step_alike {r s : State} (ha : s.agenda = []) (hjob : (s.withBytesOf r).job = s.job) :
    Alike r s (step s) (step (s.withBytesOf r)) := by
  rw [step_of_agenda_nil ha, step_of_agenda_nil (s := s.withBytesOf r) ha]
  exact exec_phaseInstr_alike hjob s.ph

theorem run_alike {r s : State} (n : Nat) (ha : s.agenda = []) (hjob : (s.withBytesOf r).job = s.job) :
    Alike r s (Sys2Proof.core.run n s) (Sys2Proof.core.run n (s.withBytesOf r)) := by
  induction n generalizing s with
  | zero => exact nop_alike r s
  | succ n ih =>
    rw [run_succ, run_succ]
    refine (step_alike ha hjob).andThen fun t hst => ih ((congrArg Inputs.agenda hst).trans ha) ?_
    rw [job_withBytesOf_eq_of_inputs_eq hst, hjob, job_eq_of_inputs_eq hst]

/-! ## CHK forgets what earlier jobs left -/

theorem checkJob_congr {passed : State → State} {s s' : State} (herror : jobError s = jobError s')
    (hclear : clearInternal s = clearInternal s') : checkJob passed s = checkJob passed s' := by
  simp [checkJob, raiseError, herror, hclear]

/-- In phase CHK, states that differ in the internal state alone take the same step. -/
theorem step_eq_of_clearInternal_eq {s s' : State} (hph : s.ph = .chk) (ha : s.agenda = [])
    (hclear : clearInternal s = clearInternal s') : step s = step s' := by
  have fields : s'.ph = s.ph ∧ s'.agenda = s.agenda ∧ s'.alg = s.alg ∧ s'.slen = s.slen ∧ s'.plen = s.plen ∧
      s'.pwMax = s.pwMax := by
    simp only [clearInternal, State.mk.injEq] at hclear
    tauto
  obtain ⟨hph', ha', halg, hslen, hplen, hpwMax⟩ := fields
  rw [step_of_agenda_nil ha, step_of_agenda_nil (ha'.trans ha), hph', hph]
  exact checkJob_congr (by simp [jobError, halg, hslen, hplen, hpwMax]) hclear

/-- Settles O56. CHK takes `s'` where it takes `s` with the bytes of `s'`; the runs from `s` and from that state go alike. -/
theorem jobRunsDependOnTheJobAlone : Obligations.JobRunsDependOnTheJobAlone := by
  intro s s' hph hph' ha ha' hpwMax herr halg hrounds hslen hplen hjob n t ht
  have hclear : clearInternal (s.withBytesOf s') = clearInternal s' := by
    simp [clearInternal, State.withBytesOf, hph, hph', ha, ha', hpwMax, herr, halg, hrounds, hslen, hplen]
  have hstep : step (s.withBytesOf s') = step s' := step_eq_of_clearInternal_eq hph ha hclear
  have hjob' : (s.withBytesOf s').job = s.job := by
    rw [hjob, State.job, State.job]
    simp [State.withBytesOf, halg, hrounds, hslen, hplen]
  obtain ⟨hrun, hinputs⟩ := run_alike (n + 1) ha hjob' t ht
  rw [run_succ, hstep, ← run_succ] at hrun
  have htjob : t.job = s.job := job_eq_of_inputs_eq hinputs
  refine ⟨congrArg Inputs.salt hinputs, congrArg Inputs.pw hinputs, congrArg Inputs.replies hinputs, htjob,
    _, hrun, ?_, rfl⟩
  rw [job_withBytesOf_eq_of_inputs_eq hinputs, hjob', htjob]

end Sys2Proof.Machine
end

section
/-! SUPPORT. Fields of an instruction word, and the decoder on the word of every well-formed instruction (30_encoding.md R90,
R93, R95). -/
namespace Sys2Proof

/-! ## Fields -/

theorem bitField_or (x y lo len : Nat) : bitField (x ||| y) lo len = bitField x lo len ||| bitField y lo len := by
  simp [bitField, Nat.shiftRight_or_distrib, BitVec.ofNat_or]

/-- A field reads back the value placed in it. -/
theorem bitField_shiftLeft_self {len : Nat} (v : BitVec len) (lo : Nat) : bitField (v.toNat <<< lo) lo len = v := by
  simp [bitField]

/-- A value placed above a field does not reach it. -/
theorem bitField_shiftLeft_above {lo len k : Nat} (x : Nat) (h : lo + len ≤ k) : bitField (x <<< k) lo len = 0 := by
  obtain ⟨d, rfl⟩ := Nat.exists_eq_add_of_le h
  apply BitVec.eq_of_toNat_eq
  have hplace : x <<< (lo + len + d) >>> lo = 2 ^ len * (x <<< d) := by
    rw [Nat.add_assoc, Nat.add_comm lo, Nat.shiftLeft_add, Nat.shiftLeft_shiftRight, Nat.shiftLeft_eq, Nat.shiftLeft_eq,
      Nat.pow_add]
    ring
  simp [bitField, hplace]

/-- A number below a field does not reach it. -/
theorem bitField_of_lt {x lo : Nat} (len : Nat) (h : x < 2 ^ lo) : bitField x lo len = 0 := by
  simp [bitField, Nat.shiftRight_eq_div_pow, Nat.div_eq_of_lt h]

/-- A value placed below a field does not reach it. -/
theorem bitField_shiftLeft_below {n k lo : Nat} (v : BitVec n) (len : Nat) (h : k + n ≤ lo) :
    bitField (v.toNat <<< k) lo len = 0 := by
  apply bitField_of_lt
  calc v.toNat <<< k = v.toNat * 2 ^ k := Nat.shiftLeft_eq ..
    _ < 2 ^ n * 2 ^ k := Nat.mul_lt_mul_of_pos_right v.isLt (by positivity)
    _ = 2 ^ (k + n) := by rw [Nat.pow_add, Nat.mul_comm]
    _ ≤ 2 ^ lo := Nat.pow_le_pow_right (by decide) h

/-! ## Decoding an encoding -/

@[simp] theorem Obj.ofCode_code (o : Obj) : Obj.ofCode o.code = o := by
  cases o <;> rfl

theorem decodeHA_word_rd (obj : Obj) (idx : Word32) : decodeHA (Instr.rd obj idx).word = .rd obj idx := by
  simp [decodeHA, Instr.word, bitField_or, bitField_shiftLeft_self, bitField_shiftLeft_above, bitField_shiftLeft_below]

theorem decodeHA_word_wr (obj : Obj) (idx data : Word32) :
    decodeHA (Instr.wr obj idx data).word = .wr obj idx data := by
  have hdir (lo len : Nat) (h : 1 ≤ lo) : bitField 1 lo len = 0 :=
    bitField_of_lt len (Nat.one_lt_two_pow (by omega))
  have hwrite : bitField 1 0 1 = 1 := rfl
  simp [decodeHA, Instr.word, bitField_or, bitField_shiftLeft_self, bitField_shiftLeft_above, bitField_shiftLeft_below,
    hdir, hwrite]

theorem decode_ha_of_lt {w : Nat} (h : w < 2 ^ Format.ha.width) : decode .ha w = .instr (decodeHA w) :=
  if_neg (Nat.not_le.2 h)

theorem decode_cmd_toNat (code : Byte) : decode .cmd code.toNat = .instr (decodeCmd code) := by
  have hwidth : ¬ 2 ^ Format.cmd.width ≤ code.toNat := Nat.not_le.2 code.isLt
  simp [decode, hwidth]

theorem decodeCmd_of_reserved {code : Byte} (h : (Instr.cmdReserved code).wf = true) :
    decodeCmd code = .cmdReserved code := by
  simp only [Instr.wf, Bool.and_eq_true, bne_iff_ne] at h
  rw [decodeCmd, if_neg h.1, if_neg h.2]

/-- Every well-formed instruction is read back from its encoding; a closed one by evaluating the decoder. -/
theorem decode_word_of_wf {i : Instr} (h : i.wf = true) : decode i.format i.word = .instr i := by
  cases i with
  | rd obj idx => exact (decode_ha_of_lt (Laws.EncodingFits.rd obj idx)).trans (by rw [decodeHA_word_rd])
  | wr obj idx data => exact (decode_ha_of_lt (Laws.EncodingFits.wr obj idx data)).trans (by rw [decodeHA_word_wr])
  | cmdReserved code => exact (decode_cmd_toNat code).trans (by rw [decodeCmd_of_reserved h])
  | _ => rfl

/-- Only a command can be ill-formed. -/
theorem wf_of_format_ne_cmd {i : Instr} (h : i.format ≠ .cmd) : i.wf = true := by
  cases i with
  | cmdReserved code => exact absurd rfl h
  | _ => rfl

/-- A word of format `PHASE` decodes to phases alone. -/
theorem eq_phaseInstr_of_decode {w : Nat} {i : Instr} (h : decode .phase w = .instr i) : ∃ p, i = phaseInstr p := by
  simp only [decode] at h
  split at h
  · cases h
  · split at h
    · next p _ =>
      cases h
      exact ⟨p, rfl⟩
    · cases h

theorem eq_phaseInstr_of_format {i : Instr} (h : i.format = .phase) : ∃ p, i = phaseInstr p := by
  have hdecode := decode_word_of_wf (wf_of_format_ne_cmd (i := i) (by simp [h]))
  rw [h] at hdecode
  exact eq_phaseInstr_of_decode hdecode

end Sys2Proof
end

section
/-! SUPPORT. Fetch and step (10_state.md R37, 20_memory.md R79, 30_encoding.md R116, 70_reset_and_hazards.md R430): what each
kind of turn runs. -/
namespace Sys2Proof.Machine

/-! ## What a turn presents -/

theorem fetch_of_agenda_nil {s : State} (ha : s.agenda = []) : fetch s = some (sequencerWord s, s) := by
  simp [fetch, ha]

theorem fetch_of_seq {s : State} {rest : List Turn} (ha : s.agenda = .seq :: rest) :
    fetch s = some (sequencerWord s, { s with agenda := rest }) := by
  simp [fetch, ha]

theorem fetch_of_word {s : State} {f : Format} {w : Nat} {rest : List Turn} (ha : s.agenda = .word f w :: rest) :
    fetch s = some ((f, w), { s with agenda := rest }) := by
  simp [fetch, ha]

theorem fetch_of_poll_busy {s : State} {rest : List Turn} (ha : s.agenda = .poll :: rest) (hb : s.busy = true) :
    fetch s = some (sequencerWord s, s) := by
  simp [fetch, ha, hb]

theorem fetch_of_poll_not_busy {s : State} {rest : List Turn} (ha : s.agenda = .poll :: rest) (hb : s.busy = false) :
    fetch s = some (readStatusWord, { s with agenda := rest }) := by
  simp [fetch, ha, hb]

theorem fetch_of_reset {s : State} {rest : List Turn} (ha : s.agenda = .reset :: rest) : fetch s = none := by
  simp [fetch, ha]

/-! ## What a step runs -/

theorem step_of_fetch {s t : State} {f : Format} {w : Nat} {i : Instr} (hf : fetch s = some ((f, w), t))
    (hd : decode f w = .instr i) : step s = exec i t := by
  simp [step, hf, hd]

/-- Where the sequencer's word is fetched, the step performs the phase in `PH`. -/
theorem step_of_fetch_sequencerWord {s t : State} (hf : fetch s = some (sequencerWord s, t)) :
    step s = exec (phaseInstr s.ph) t :=
  step_of_fetch hf (decode_phase_code s.ph)

theorem step_of_reset {s : State} {rest : List Turn} (ha : s.agenda = .reset :: rest) :
    step s = .next (toReset { s with agenda := rest }) := by
  simp [step, fetch_of_reset ha, resetEvent, ha]

/-- Settles O6: the encodings that the turns present decode to the phase, to the instruction and to the read of `STATUS`. -/
theorem stepPerformsPhaseOrPresentedInstruction : Obligations.StepPerformsPhaseOrPresentedInstruction := by
  intro s
  refine ⟨step_of_agenda_nil, ?seq, ?word, ?pollBusy, ?pollDone⟩
  case seq => exact fun rest ha => step_of_fetch_sequencerWord (fetch_of_seq ha)
  case word => exact fun i rest hwf ha => step_of_fetch (fetch_of_word ha) (decode_word_of_wf hwf)
  case pollBusy => exact fun rest ha hb => step_of_fetch_sequencerWord (fetch_of_poll_busy ha hb)
  case pollDone =>
    exact fun rest ha hb => step_of_fetch (fetch_of_poll_not_busy ha hb) (decode_word_of_wf (i := .rd .status 0) rfl)

/-- Settles O5, turn by turn. -/
theorem stepRunsTheFetchedInstruction : Obligations.StepRunsTheFetchedInstruction := by
  intro s
  exact ⟨fun f w t i => step_of_fetch, fetch_of_agenda_nil, fun rest => fetch_of_seq, fun f w rest => fetch_of_word,
    fun rest => fetch_of_poll_busy, fun rest => fetch_of_poll_not_busy, fun rest => step_of_reset⟩

end Sys2Proof.Machine
end

section
/-! SUPPORT. The frame of the host's registers (10_state.md R20): what micro-operations, round types and phases leave as it
is. -/
namespace Sys2Proof.Machine

/-- What the host alone writes, and the parameter `PW_MAX`. -/
def State.hostSide (s : State) : Inputs × Nat := (s.inputs, s.pwMax)

theorem hostSide_eq_iff {s t : State} :
    t.hostSide = s.hostSide ↔
      t.alg = s.alg ∧ t.rounds = s.rounds ∧ t.slen = s.slen ∧ t.plen = s.plen ∧ t.salt = s.salt ∧ t.pw = s.pw ∧
      t.pwMax = s.pwMax ∧ t.agenda = s.agenda ∧ t.replies = s.replies := by
  simp only [State.hostSide, State.inputs, Prod.mk.injEq, Inputs.mk.injEq]
  tauto

theorem hostSide_setBuf {x : Buf} (hx : isInternal x = true) (s : State) (m : Memory) :
    (s.setBuf x m).hostSide = s.hostSide := by
  rw [State.hostSide, inputs_setBuf hx, setBuf_pwMax, State.hostSide]

/-- Where the answer is a next state, it has the host side of `s`. -/
def KeepsHostSide (s : State) (a : Answer) : Prop :=
  ∀ t, a = .next t → t.hostSide = s.hostSide

/-! ## Sequences and branches -/

theorem KeepsHostSide.next {s t : State} (h : t.hostSide = s.hostSide) : KeepsHostSide s (.next t) := by
  rintro _ ⟨⟩
  exact h

theorem KeepsHostSide.ite {s : State} {c : Prop} [Decidable c] {a b : Answer} (ha : KeepsHostSide s a)
    (hb : KeepsHostSide s b) : KeepsHostSide s (if c then a else b) := by
  split
  · exact ha
  · exact hb

theorem KeepsHostSide.andThen {s : State} {a : Answer} {k : State → Answer} (ha : KeepsHostSide s a)
    (hk : ∀ t, KeepsHostSide t (k t)) : KeepsHostSide s (andThen a k) := by
  intro u hu
  obtain ⟨t, hat, htu⟩ := andThen_next.1 hu
  exact (hk t u htu).trans (ha t hat)

/-- A phase keeps the host side when its micro-operation does and its writes of counters and `PH` do. -/
theorem KeepsHostSide.issue {s : State} {u : State → Answer} {finish : State → State} (hu : KeepsHostSide s (u s))
    (hfinish : ∀ t, (finish t).hostSide = t.hostSide) : KeepsHostSide s (issue u finish s) :=
  hu.andThen fun t => .next (hfinish t)

/-! ## The shared operations -/

theorem openContext_keepsHostSide (s : State) : KeepsHostSide s (openContext s) := by
  intro t ht
  obtain ⟨-, rfl⟩ := openContext_next.1 ht
  rfl

theorem feedWhole_keepsHostSide (x : Buf) (s : State) : KeepsHostSide s (feedWhole x s) := by
  intro t ht
  obtain ⟨-, -, rfl⟩ := feedWhole_next.1 ht
  rfl

theorem feedPartial_keepsHostSide (s : State) : KeepsHostSide s (feedPartial s) := by
  intro t ht
  obtain ⟨-, -, rfl⟩ := feedPartial_next.1 ht
  rfl

theorem hashFinish_keepsHostSide {x : Buf} (hx : isInternal x = true) (s : State) :
    KeepsHostSide s (hashFinish x s) := by
  intro t ht
  obtain ⟨-, rfl⟩ := hashFinish_next.1 ht
  exact hostSide_setBuf hx s _

theorem fillFromT_keepsHostSide {x : Buf} (hx : isInternal x = true) (s : State) : KeepsHostSide s (fillFromT x s) := by
  intro t ht
  obtain ⟨-, rfl⟩ := fillFromT_next.1 ht
  exact hostSide_setBuf hx s _

theorem encodeFullGroup_keepsHostSide (s : State) : KeepsHostSide s (encodeFullGroup s) := by
  intro t ht
  obtain ⟨-, i0, i1, i2, -, -, -, rfl⟩ := encodeFullGroup_next.1 ht
  rfl

theorem checkJob_keepsHostSide {passed : State → State} (hpassed : ∀ t, (passed t).hostSide = t.hostSide) (s : State) :
    KeepsHostSide s (checkJob passed s) := by
  intro t ht
  obtain ⟨e, -, rfl⟩ | ⟨-, rfl⟩ := checkJob_next.1 ht
  · rfl
  · exact hpassed (clearInternal s)

theorem feedAll_keepsHostSide (xs : List Buf) (s : State) : KeepsHostSide s (feedAll xs s) := by
  induction xs generalizing s with
  | nil => exact .next rfl
  | cons x xs ih => exact (feedWhole_keepsHostSide x s).andThen ih

theorem roundOf_keepsHostSide (xs : List Buf) (s : State) : KeepsHostSide s (roundOf xs s) :=
  (openContext_keepsHostSide s).andThen fun t => (feedAll_keepsHostSide xs t).andThen fun u =>
    .issue (hashFinish_keepsHostSide (x := .c) rfl u) fun _ => rfl

/-! ## Instructions -/

/-- Every phase issues operations that keep the host side, and then writes counters and `PH` alone. -/
theorem exec_phaseInstr_keepsHostSide (p : Phase) (s : State) : KeepsHostSide s (exec (phaseInstr p) s) := by
  have goOn {finish : State → State} (hf : ∀ t, (finish t).hostSide = t.hostSide) :
      KeepsHostSide s (issue (fun t => .next t) finish s) := .issue (.next rfl) hf
  have new {finish : State → State} (hf : ∀ t, (finish t).hostSide = t.hostSide) :
      KeepsHostSide s (issue openContext finish s) := .issue (openContext_keepsHostSide s) hf
  have feed (x : Buf) {finish : State → State} (hf : ∀ t, (finish t).hostSide = t.hostSide) :
      KeepsHostSide s (issue (feedWhole x) finish s) := .issue (feedWhole_keepsHostSide x s) hf
  cases p with
  | idle | done | err => exact .next rfl
  | chk => exact checkJob_keepsHostSide (passed := goto .b0) (fun _ => rfl) s
  | b0 | a0 | dp0 | ds0 => exact new fun _ => rfl
  | b1 | b3 | a1 => exact feed .pw fun _ => rfl
  | b2 | a2 => exact feed .salt fun _ => rfl
  | b4 => exact .issue (hashFinish_keepsHostSide (x := .b) rfl s) fun _ => rfl
  | a5 | r5 => exact .issue (hashFinish_keepsHostSide (x := .c) rfl s) fun _ => rfl
  | dp2 | ds2 => exact .issue (hashFinish_keepsHostSide (x := .t) rfl s) fun _ => rfl
  | p0 => exact .issue (fillFromT_keepsHostSide (x := .p) rfl s) fun _ => rfl
  | s0 => exact .issue (fillFromT_keepsHostSide (x := .s) rfl s) fun _ => rfl
  | a3 => exact .ite (feed .b fun _ => rfl) (.issue (feedPartial_keepsHostSide s) fun _ => rfl)
  | a4 => exact .ite (goOn fun _ => rfl) (.ite (feed .b fun _ => rfl) (feed .pw fun _ => rfl))
  | dp1 => exact .ite (goOn fun _ => rfl) (feed .pw fun _ => rfl)
  | ds1 => exact .ite (goOn fun _ => rfl) (feed .salt fun _ => rfl)
  | rt => exact .ite (goOn fun _ => rfl) (new fun _ => rfl)
  | r1 => exact .ite (feed .p fun _ => rfl) (feed .c fun _ => rfl)
  | r2 => exact .ite (feed .s fun _ => rfl) (goOn fun _ => rfl)
  | r3 => exact .ite (feed .p fun _ => rfl) (goOn fun _ => rfl)
  | r4 => exact .ite (feed .c fun _ => rfl) (feed .p fun _ => rfl)
  | e0 =>
    exact .ite (.issue (encodeFullGroup_keepsHostSide s) fun _ => rfl)
      (.ite (.issue (.next rfl) fun _ => rfl) (.issue (.next rfl) fun _ => rfl))

/-- Every micro-operation keeps the host side. -/
theorem exec_keepsHostSide_of_microOp {i : Instr} (h : i.format = .u ∨ i.format = .ue) (s : State) :
    KeepsHostSide s (exec i s) := by
  cases i with
  | nop => exact .next rfl
  | chk => exact checkJob_keepsHostSide (passed := id) (fun _ => rfl) s
  | hnew => exact openContext_keepsHostSide s
  | hupdPw | hupdSalt | hupdB | hupdP | hupdS | hupdC => exact feedWhole_keepsHostSide _ s
  | hupdn => exact feedPartial_keepsHostSide s
  | hfinB | hfinC | hfinT => exact hashFinish_keepsHostSide rfl s
  | fillP | fillS => exact fillFromT_keepsHostSide rfl s
  | encg4 => exact encodeFullGroup_keepsHostSide s
  | encg3 | encg2 => exact .next rfl
  | _ => simp [Instr.format] at h

theorem exec_keepsHostSide_of_roundType {i : Instr} (h : i.format = .rt) (s : State) : KeepsHostSide s (exec i s) := by
  cases i with
  | rndCp | rndCpp | rndCsp | rndCspp | rndPc | rndPpc | rndPsc | rndPspc => exact roundOf_keepsHostSide _ s
  | _ => cases h

/-- Settles O35, format by format. -/
theorem jobRegistersAreWrittenByTheHostAlone : Obligations.JobRegistersAreWrittenByTheHostAlone := by
  intro i s t hha hcmd ht
  refine hostSide_eq_iff.1 ?_
  cases hf : i.format with
  | ha => exact absurd hf hha
  | cmd => exact absurd hf hcmd
  | u => exact exec_keepsHostSide_of_microOp (.inl hf) s t ht
  | ue => exact exec_keepsHostSide_of_microOp (.inr hf) s t ht
  | rt => exact exec_keepsHostSide_of_roundType hf s t ht
  | phase =>
    obtain ⟨p, rfl⟩ := eq_phaseInstr_of_format hf
    exact exec_phaseInstr_keepsHostSide p s t ht

end Sys2Proof.Machine
end

section
/-! SUPPORT. Host reads (10_state.md R47, R30, R31) and the reset state (R48). -/
namespace Sys2Proof.Machine

theorem status_eq_two_iff {s : State} : s.status = 2 ↔ s.ph = .done := by
  unfold State.status
  cases s.ph <;> simp

/-- Settles O36: each object's read is a function of the fields that the host may see. -/
theorem hostReadsDependOnVisibleStateOnly : Obligations.HostReadsDependOnVisibleStateOnly := by
  intro s t hstatus herr halg hrounds hslen hplen hsalt hresult o idx
  have hdone : t.ph = .done ↔ s.ph = .done := by rw [← status_eq_two_iff, ← status_eq_two_iff, hstatus]
  cases o with
  | ctrl | pw | reserved7 | reservedC | reservedD | reservedE | reservedF => rfl
  | status => exact congrArg (BitVec.setWidth 32) hstatus
  | err => exact congrArg (BitVec.setWidth 32) herr
  | alg => exact congrArg (BitVec.setWidth 32) halg
  | rounds => exact hrounds
  | slen => exact congrArg (BitVec.setWidth 32) hslen
  | plen => exact hplen
  | salt =>
    refine ite_congr rfl (fun hidx => ?_) fun _ => rfl
    rw [hsalt _ hidx]
  | digest =>
    refine ite_congr (by rw [hdone]) (fun h => ?_) fun _ => rfl
    obtain ⟨hC, -⟩ := hresult (status_eq_two_iff.2 (hdone.1 h.1))
    rw [hC _ h.2]
  | enc =>
    refine ite_congr (by rw [hdone]) (fun h => ?_) fun _ => rfl
    obtain ⟨-, hE⟩ := hresult (status_eq_two_iff.2 (hdone.1 h.1))
    rw [hE _ h.2]

/-- Settles O49: every buffer is empty, and of the clauses about certain phases only `quiet` speaks of IDLE. -/
theorem invHoldsAtReset : Obligations.InvHoldsAtReset where
  buffers x := by cases x <;> rfl
  pwMax_le := Nat.le_of_lt_succ Config.pwMax.isLt
  context := rfl
  closed_empty _ := rfl
  job := by simp [State.reset, runningIn]
  err_range := by decide
  err_iff := by simp [State.reset]
  cnt_plen := by simp [State.reset]
  cnt_salt := by simp [State.reset]
  round_test := by simp [State.reset]
  round_open := by simp [State.reset, insideRound]
  round_end := by simp [State.reset]
  group_zero _ _ := rfl
  group_lt := by simp [State.reset]
  text _ _ _ := rfl
  quiet _ := rfl
  agenda := rfl

end Sys2Proof.Machine
end

section
/-! SUPPORT. Which words decode (30_encoding.md R93 to R107): a word that decodes is the word of the instruction it decodes to,
and the words that stand for nothing are refused. -/
namespace Sys2Proof

/-! ## Fields put together -/

theorem bitField_toNat (w lo len : Nat) : (bitField w lo len).toNat = w / 2 ^ lo % 2 ^ len := by
  simp [bitField, Nat.shiftRight_eq_div_pow]

/-- The low bits of a word and the field above them are the low bits up to the end of the field. -/
theorem mod_or_bitField (w lo len : Nat) : w % 2 ^ lo ||| (bitField w lo len).toNat <<< lo = w % 2 ^ (lo + len) := by
  have hlow : w % 2 ^ lo < 2 ^ lo := Nat.mod_lt _ (by positivity)
  rw [Nat.lor_comm, ← Nat.shiftLeft_add_eq_or_of_lt hlow, bitField_toNat, Nat.shiftLeft_eq, Nat.pow_add, Nat.mod_mul]
  ring

/-! ## The instruction of a decoded word, format by format -/

theorem Obj.code_ofCode (c : BitVec 4) : (Obj.ofCode c).code = c := by
  revert c
  decide

theorem format_decodeHA (w : Nat) : (decodeHA w).format = .ha := by
  unfold decodeHA
  dsimp only
  split <;> rfl

/-- A read's word is the fields `dir`, `obj` and `idx`; the reply field above them is no operand (log entry 21). -/
theorem word_decodeHA_of_even {w : Nat} (hw : w % 2 = 0) : (decodeHA w).word = w % 2 ^ 37 := by
  have hdir : bitField w 0 1 = 0 := BitVec.eq_of_toNat_eq (by simpa [bitField_toNat] using hw)
  have hobj := mod_or_bitField w 1 4
  rw [Nat.pow_one, hw, Nat.zero_or] at hobj
  simp only [decodeHA, if_pos hdir, Instr.word, Obj.code_ofCode, hobj]
  exact mod_or_bitField w 5 32

/-- A write's word is all four fields. -/
theorem word_decodeHA_of_odd {w : Nat} (hw : w % 2 = 1) : (decodeHA w).word = w % 2 ^ 69 := by
  have hdir : bitField w 0 1 ≠ 0 := fun h => by
    have := congrArg BitVec.toNat h
    simp [bitField_toNat, hw] at this
  have hobj := mod_or_bitField w 1 4
  rw [Nat.pow_one, hw] at hobj
  simp only [decodeHA, if_neg hdir, Instr.word, Obj.code_ofCode, hobj]
  rw [mod_or_bitField w 5 32]
  exact mod_or_bitField w 37 32

theorem format_decodeCmd (code : Byte) : (decodeCmd code).format = .cmd := by
  unfold decodeCmd
  split
  · rfl
  · split <;> rfl

theorem wf_decodeCmd (code : Byte) : (decodeCmd code).wf = true := by
  unfold decodeCmd
  split
  · rfl
  · split
    · rfl
    · next hstart hclear => simpa [Instr.wf] using ⟨hstart, hclear⟩

theorem word_decodeCmd (code : Byte) : (decodeCmd code).word = code.toNat := by
  unfold decodeCmd
  split
  · next h => rw [h]; rfl
  · split
    · next h => rw [h]; rfl
    · rfl

theorem format_phaseInstr (p : Phase) : (phaseInstr p).format = .phase := by
  cases p <;> rfl

theorem word_phaseInstr (p : Phase) : (phaseInstr p).word = p.code.toNat := by
  cases p <;> rfl

/-- A code that names a phase is that phase's code. -/
theorem Phase.code_of_ofCode {c : BitVec 6} {p : Phase} (h : Phase.ofCode c = some p) : p.code = c := by
  revert c
  cases p <;> decide

theorem format_decodeRT (code : BitVec 3) : (decodeRT code).format = .rt := by
  revert code
  decide

theorem word_decodeRT (code : BitVec 3) : (decodeRT code).word = code.toNat := by
  revert code
  decide

/-- A byte is its fields `class`, `part` and `sel` (R99). -/
theorem toNat_eq_class_part_sel (u : Byte) :
    u.toNat = 16 * (bitField u.toNat 4 4).toNat + 8 * (bitField u.toNat 3 1).toNat + (bitField u.toNat 0 3).toNat := by
  have := u.isLt
  simp only [bitField_toNat]
  omega

/-- A byte is its fields `class` and `n` (R99). -/
theorem toNat_eq_class_n (u : Byte) :
    u.toNat = 16 * (bitField u.toNat 4 4).toNat + (bitField u.toNat 0 4).toNat := by
  have := u.isLt
  simp only [bitField_toNat]
  omega

theorem format_word_of_decodeU {u : Byte} {i : Instr} (h : decodeU u = some i) : i.format = .u ∧ i.word = u.toNat := by
  rw [toNat_eq_class_part_sel]
  unfold decodeU at h
  split at h <;> cases h <;> simp [Instr.format, Instr.word, *]

theorem format_word_of_decodeUE {u : Byte} {i : Instr} (h : decodeUE u = some i) :
    i.format = .ue ∧ i.word = u.toNat := by
  rw [toNat_eq_class_n]
  unfold decodeUE at h
  split at h <;> cases h <;> simp [Instr.format, Instr.word, *]

/-! ## The decoder on a word -/

theorem lt_of_decode {f : Format} {w : Nat} {i : Instr} (h : decode f w = .instr i) : w < 2 ^ f.width := by
  by_contra hwide
  unfold decode at h
  rw [if_pos (Nat.not_lt.1 hwide)] at h
  cases h

/-- An instruction decoded from a format that leaves no bit open is of that format, and the word is its encoding. -/
theorem format_word_of_decode {f : Format} {w : Nat} {i : Instr} (hf : f ≠ .ha) (h : decode f w = .instr i) :
    i.format = f ∧ i.word = w := by
  have hw := lt_of_decode h
  unfold decode at h
  rw [if_neg (Nat.not_le.2 hw)] at h
  cases f with
  | ha => exact absurd rfl hf
  | u =>
    have hbyte : (BitVec.ofNat 8 w).toNat = w := Nat.mod_eq_of_lt hw
    dsimp only at h
    split at h <;> cases h
    next hu => exact hbyte ▸ format_word_of_decodeU hu
  | ue =>
    have hbyte : (BitVec.ofNat 8 w).toNat = w := Nat.mod_eq_of_lt hw
    dsimp only at h
    split at h <;> cases h
    next hu => exact hbyte ▸ format_word_of_decodeUE hu
  | cmd =>
    cases h
    exact ⟨format_decodeCmd _, (word_decodeCmd _).trans (Nat.mod_eq_of_lt hw)⟩
  | phase =>
    dsimp only at h
    split at h <;> cases h
    next p hp =>
      refine ⟨format_phaseInstr p, ?_⟩
      rw [word_phaseInstr, Phase.code_of_ofCode hp]
      exact Nat.mod_eq_of_lt hw
  | rt =>
    cases h
    exact ⟨format_decodeRT _, (word_decodeRT _).trans (Nat.mod_eq_of_lt hw)⟩

theorem eq_decodeHA_of_decode {w : Nat} {i : Instr} (h : decode .ha w = .instr i) : i = decodeHA w := by
  rw [decode_ha_of_lt (lt_of_decode h)] at h
  cases h
  rfl

theorem eq_decodeCmd_of_decode {w : Nat} {i : Instr} (h : decode .cmd w = .instr i) :
    i = decodeCmd (BitVec.ofNat 8 w) := by
  have hbyte : decode .cmd w = .instr (decodeCmd (BitVec.ofNat 8 w)) := if_neg (Nat.not_le.2 (lt_of_decode h))
  rw [hbyte] at h
  cases h
  rfl

theorem format_of_decode {f : Format} {w : Nat} {i : Instr} (h : decode f w = .instr i) : i.format = f := by
  by_cases hf : f = .ha
  · subst hf
    rw [eq_decodeHA_of_decode h]
    exact format_decodeHA w
  · exact (format_word_of_decode hf h).1

theorem wf_of_decode {f : Format} {w : Nat} {i : Instr} (h : decode f w = .instr i) : i.wf = true := by
  by_cases hf : f = .cmd
  · subst hf
    rw [eq_decodeCmd_of_decode h]
    exact wf_decodeCmd _
  · exact wf_of_format_ne_cmd (by rwa [format_of_decode h])

/-! ## The round trip -/

/-- Settles O1. -/
theorem decodeReadsEveryEncoding : Obligations.DecodeReadsEveryEncoding :=
  fun _ => decode_word_of_wf

/-- Settles O2: only the word of a port read can hold bits that are no operand. -/
theorem encodingIsTheDecodedWord : Obligations.EncodingIsTheDecodedWord := by
  intro f w i h
  refine ⟨wf_of_decode h, format_of_decode h, ?_⟩
  by_cases hf : f = .ha
  · subst hf
    rw [eq_decodeHA_of_decode h]
    obtain hread | hwrite := Nat.mod_two_eq_zero_or_one w
    · exact .inr ⟨rfl, hread, word_decodeHA_of_even hread⟩
    · exact .inl ((word_decodeHA_of_odd hwrite).trans (Nat.mod_eq_of_lt (lt_of_decode h)))
  · exact .inl (format_word_of_decode hf h).2

/-- Settles O4: each word is its instruction's encoding, and the decoder reads that back. -/
theorem sampleWordsDecode : Obligations.SampleWordsDecode :=
  ⟨decode_word_of_wf (i := .hupdC) rfl, decode_word_of_wf (i := .hupdn) rfl, decode_word_of_wf (i := .hfinT) rfl,
    decode_word_of_wf (i := .encg4) rfl, decode_word_of_wf (i := .clear) rfl,
    decode_word_of_wf (i := .cmdReserved 0x7F) rfl, decode_word_of_wf (i := .rndPsc) rfl,
    decode_word_of_wf (i := .phE0) rfl, decode_word_of_wf (i := .wr .salt 9 0x67) rfl⟩

/-! ## Words that stand for nothing -/

/-- The bytes that R101 gives format `U`. -/
def microOpBytes : List Nat :=
  [0x00, 0x01, 0x10, 0x20, 0x21, 0x22, 0x23, 0x24, 0x25, 0x2A, 0x32, 0x35, 0x36, 0x43, 0x44]

theorem word_mem_microOpBytes {i : Instr} (h : i.format = .u) : i.word ∈ microOpBytes := by
  cases i with
  | nop | chk | hnew | hupdPw | hupdSalt | hupdB | hupdP | hupdS | hupdC | hupdn | hfinB | hfinC | hfinT | fillP
  | fillS => decide
  | _ => cases h

theorem word_mem_of_format_ue {i : Instr} (h : i.format = .ue) : i.word ∈ [0x52, 0x53, 0x54] := by
  cases i with
  | encg4 | encg3 | encg2 => decide
  | _ => cases h

theorem decodeU_of_not_mem {u : Byte} (h : u.toNat ∉ microOpBytes) : decodeU u = none := by
  refine Option.eq_none_iff_forall_ne_some.2 fun i hi => h ?_
  obtain ⟨hformat, hword⟩ := format_word_of_decodeU hi
  rw [← hword]
  exact word_mem_microOpBytes hformat

theorem decodeUE_of_not_mem {u : Byte} (h : u.toNat ∉ [0x52, 0x53, 0x54]) : decodeUE u = none := by
  refine Option.eq_none_iff_forall_ne_some.2 fun i hi => h ?_
  obtain ⟨hformat, hword⟩ := format_word_of_decodeUE hi
  rw [← hword]
  exact word_mem_of_format_ue hformat

theorem Phase.code_lt (p : Phase) : p.code.toNat < 0x1E := by
  cases p <;> decide

theorem Phase.ofCode_of_le {c : BitVec 6} (h : 0x1E ≤ c.toNat) : Phase.ofCode c = none := by
  refine Option.eq_none_iff_forall_ne_some.2 fun p hp => ?_
  have := p.code_lt
  rw [Phase.code_of_ofCode hp] at this
  omega

theorem decode_u_of_reserved {w : Nat} (hw : w < 256) (hmap : w ∉ microOpBytes) :
    decode .u w = .illegal (.reservedMicroOp (BitVec.ofNat 8 w)) := by
  have hbyte : (BitVec.ofNat 8 w).toNat = w := Nat.mod_eq_of_lt hw
  have hnone : decodeU (BitVec.ofNat 8 w) = none := decodeU_of_not_mem (by rwa [hbyte])
  simp [decode, Format.width, hw, hnone]

theorem decode_ue_of_reserved {w : Nat} (hw : w < 256) (hmap : w ∉ [0x52, 0x53, 0x54]) :
    decode .ue w = .illegal (.reservedMicroOp (BitVec.ofNat 8 w)) := by
  have hbyte : (BitVec.ofNat 8 w).toNat = w := Nat.mod_eq_of_lt hw
  have hnone : decodeUE (BitVec.ofNat 8 w) = none := decodeUE_of_not_mem (by rwa [hbyte])
  simp [decode, Format.width, hw, hnone]

theorem decode_phase_of_unused {w : Nat} (hw : w < 64) (hunused : 0x1E ≤ w) :
    decode .phase w = .illegal (.unusedPhase (BitVec.ofNat 6 w)) := by
  have hcode : (BitVec.ofNat 6 w).toNat = w := Nat.mod_eq_of_lt hw
  have hnone : Phase.ofCode (BitVec.ofNat 6 w) = none := Phase.ofCode_of_le (by rwa [hcode])
  simp [decode, Format.width, hw, hnone]

theorem instr?_eq_some_iff {d : Decoded} {i : Instr} : d.instr? = some i ↔ d = .instr i := by
  cases d <;> simp [Decoded.instr?]

end Sys2Proof

namespace Sys2Proof.Machine

/-! ## Presented words -/

theorem step_of_fetch_illegal {s t : State} {f : Format} {w : Nat} {why : Illegal} (hf : fetch s = some ((f, w), t))
    (hd : decode f w = .illegal why) : step s = .refused (.illegalEncoding why) := by
  simp [step, hf, hd]

/-- Settles O3, format by format. -/
theorem reservedEncodingsAreRefused : Obligations.ReservedEncodingsAreRefused :=
  ⟨fun _ => decode_u_of_reserved, fun _ => decode_ue_of_reserved, fun _ => decode_phase_of_unused,
    fun _ _ _ _ _ ha hd => step_of_fetch_illegal (fetch_of_word ha) hd⟩

/-- Settles O7: the word is the first turn, and taking that turn leaves `s`. -/
theorem tableWordRunsNext : Obligations.TableWordRunsNext := by
  intro s nbits w i h
  exact step_of_fetch (fetch_of_word (s := s.withFetchWord nbits w) rfl) (instr?_eq_some_iff.1 h)

end Sys2Proof.Machine
end

section
/-! SUPPORT. The phases against the table of the microprogram (30_encoding.md R104, R105): a phase is its micro-operation, then
the table's writes. -/
namespace Sys2Proof.Machine

/-! ## Micro-operations leave the counters to the phase -/

/-- Where the answer is a next state, it has the counters of `s`. -/
def KeepsCounters (s : State) (a : Answer) : Prop :=
  ∀ t, a = .next t → t.cnt = s.cnt ∧ t.i = s.i ∧ t.g = s.g

theorem KeepsCounters.next {s t : State} (hcnt : t.cnt = s.cnt) (hi : t.i = s.i) (hg : t.g = s.g) :
    KeepsCounters s (.next t) := by
  rintro _ ⟨⟩
  exact ⟨hcnt, hi, hg⟩

theorem openContext_keepsCounters (s : State) : KeepsCounters s (openContext s) := by
  intro t ht
  obtain ⟨-, rfl⟩ := openContext_next.1 ht
  exact ⟨rfl, rfl, rfl⟩

theorem feedWhole_keepsCounters (x : Buf) (s : State) : KeepsCounters s (feedWhole x s) := by
  intro t ht
  obtain ⟨-, -, rfl⟩ := feedWhole_next.1 ht
  exact ⟨rfl, rfl, rfl⟩

theorem feedPartial_keepsCounters (s : State) : KeepsCounters s (feedPartial s) := by
  intro t ht
  obtain ⟨-, -, rfl⟩ := feedPartial_next.1 ht
  exact ⟨rfl, rfl, rfl⟩

theorem hashFinish_keepsCounters (x : Buf) (s : State) : KeepsCounters s (hashFinish x s) := by
  intro t ht
  obtain ⟨-, rfl⟩ := hashFinish_next.1 ht
  simp

theorem fillFromT_keepsCounters (x : Buf) (s : State) : KeepsCounters s (fillFromT x s) := by
  intro t ht
  obtain ⟨-, rfl⟩ := fillFromT_next.1 ht
  simp

theorem encodeFullGroup_keepsCounters (s : State) : KeepsCounters s (encodeFullGroup s) := by
  intro t ht
  obtain ⟨-, i0, i1, i2, -, -, -, rfl⟩ := encodeFullGroup_next.1 ht
  exact ⟨rfl, rfl, rfl⟩

/-- Every micro-operation but CHK, which clears the counters, leaves them to the phase that issues it. -/
theorem exec_keepsCounters {i : Instr} (h : i ≠ .chk ∧ (i.format = .u ∨ i.format = .ue)) (s : State) :
    KeepsCounters s (exec i s) := by
  obtain ⟨hchk, hformat⟩ := h
  cases i with
  | chk => exact absurd rfl hchk
  | nop => exact .next rfl rfl rfl
  | hnew => exact openContext_keepsCounters s
  | hupdPw | hupdSalt | hupdB | hupdP | hupdS | hupdC => exact feedWhole_keepsCounters _ s
  | hupdn => exact feedPartial_keepsCounters s
  | hfinB | hfinC | hfinT => exact hashFinish_keepsCounters _ s
  | fillP | fillS => exact fillFromT_keepsCounters _ s
  | encg4 => exact encodeFullGroup_keepsCounters s
  | encg3 | encg2 => exact .next rfl rfl rfl
  | _ => simp [Instr.format] at hformat

/-! ## The table's writes -/

/-- A phase that issues such a micro-operation: its writes need to be the table's only over the counters of `s`. -/
theorem issue_exec {s : State} {u : State → Answer} {i : Instr} {finish writes : State → State} (hu : u s = exec i s)
    (h : i ≠ .chk ∧ (i.format = .u ∨ i.format = .ue))
    (hwrites : ∀ t, finish { t with cnt := s.cnt, i := s.i, g := s.g } = writes t) :
    issue u finish s = andThen (exec i s) fun t => .next (writes t) := by
  cases ht : exec i s with
  | next t =>
    obtain ⟨hcnt, hi, hg⟩ := exec_keepsCounters h s t ht
    have hw := hwrites t
    rw [← hcnt, ← hi, ← hg] at hw
    rw [issue_of_next (hu.trans ht), andThen_next_left, ← hw]
  | fault r | refused r => simp [issue, andThen, hu, ht]

/-- Settles O45, row by row of the table; a row with a condition branch by branch. -/
theorem phasesFollowTheMicroprogram : Obligations.PhasesFollowTheMicroprogram := by
  intro s u
  unfold issuedBy nextCnt nextI nextG nextPhase
  cases s.ph with
  | chk => exact fun hchk => absurd rfl hchk
  | idle | done | err => rintro - ⟨⟩
  | b0 | b1 | b2 | b3 | b4 | a0 | a1 | a2 | a5 | dp0 | dp2 | p0 | ds0 | ds2 | s0 | r5 =>
    rintro - ⟨⟩
    exact issue_exec rfl (by decide) fun _ => rfl
  | a3 | dp1 | ds1 | rt | r1 | r2 | r3 | r4 =>
    rintro - ⟨⟩
    dsimp only
    split
    · next hcond => exact (if_pos hcond).trans (issue_exec rfl (by decide) fun _ => rfl)
    · next hcond => exact (if_neg hcond).trans (issue_exec rfl (by decide) fun _ => rfl)
  | a4 | e0 =>
    rintro - ⟨⟩
    dsimp only
    split
    · next hcond => exact (if_pos hcond).trans (issue_exec rfl (by decide) fun _ => rfl)
    · next hcond =>
      refine (if_neg hcond).trans ?_
      split
      · exact issue_exec rfl (by decide) fun _ => rfl
      · exact issue_exec rfl (by decide) fun _ => rfl

end Sys2Proof.Machine
end

section
/-! SUPPORT. Round types (30_encoding.md R106 to R108, R116): the buffers that one feeds, the six sequencer steps that it stands
for, and its period in `I`. -/
namespace Sys2Proof.Machine

/-! ## A round with its message -/

/-- The bytes that a feed of the buffer appends. -/
def State.feedBytes (s : State) (x : Buf) : Bytes := (s.buf x).readBytes 0 (s.feedLen x)

/-- `s` inside a round, in phase `p` with the bytes `m` in the open context. -/
def State.midRound (s : State) (p : Phase) (m : Bytes) : State :=
  { s with ph := p, hctx := ⟨true, m⟩ }

/-- `s` after a round with message `m`. -/
def State.afterRound (s : State) (m : Bytes) : State :=
  { s with
    bufC := s.bufC.writeBytes 0 (hashBytes s.alg m), hctx := ⟨false, []⟩, i := s.i + 1, ph := .rt }

theorem feedWhole_midRound {s : State} (hjob : jobError s = none) (x : Buf) (p : Phase) (m : Bytes) :
    feedWhole x (s.midRound p m) = .next (s.midRound p (m ++ s.feedBytes x)) :=
  feedWhole_next.2 ⟨rfl, wholeInRange_of_job (s := s.midRound p m) hjob x, by cases x <;> rfl⟩

theorem feedAll_midRound {s : State} (hjob : jobError s = none) (xs : List Buf) (p : Phase) (m : Bytes) :
    feedAll xs (s.midRound p m) = .next (s.midRound p (m ++ xs.flatMap s.feedBytes)) := by
  induction xs generalizing m with
  | nil => simp [feedAll]
  | cons x xs ih => simp [feedAll, feedWhole_midRound hjob, ih]

/-- With a closed context and a job that CHK accepts, a round type hashes the bytes of its buffers. -/
theorem roundOf_of_closed {s : State} (hjob : jobError s = none) (hc : s.hctx.isOpen = false) (xs : List Buf) :
    roundOf xs s = .next (s.afterRound (xs.flatMap s.feedBytes)) := by
  have hnew : hashNew s = s.midRound s.ph [] := rfl
  rw [roundOf, openContext_of_closed hc, andThen_next_left, hnew, feedAll_midRound hjob]
  rfl

theorem roundOf_of_open {s : State} (ho : s.hctx.isOpen = true) (xs : List Buf) :
    roundOf xs s = .refused .contextOpen := by
  rw [roundOf, openContext_of_open ho]
  rfl

/-- The buffers that phases R1 to R4 feed, by the predicates of `I` (R106, R107). -/
def State.roundFeeds (s : State) : List Buf :=
  [if s.odd then .p else .c] ++ (if s.sen then [.s] else []) ++ (if s.pen then [.p] else [])
    ++ [if s.odd then .c else .p]

/-- The round type that `RTYPE` selects feeds the buffers of phases R1 to R4. -/
theorem exec_roundInstr (s : State) : exec (roundInstr s.rtype) s = roundOf s.roundFeeds s := by
  unfold State.rtype State.roundFeeds
  cases s.odd <;> cases s.sen <;> cases s.pen <;> rfl

/-! ## The six steps -/

theorem issue_feed_midRound {s : State} (hjob : jobError s = none) (x : Buf) (p q : Phase) (m : Bytes) :
    issue (feedWhole x) (goto q) (s.midRound p m) = .next (s.midRound q (m ++ s.feedBytes x)) :=
  issue_of_next (feedWhole_midRound hjob x p m)

theorem issue_nop_midRound (s : State) (p q : Phase) (m : Bytes) :
    issue (fun t => .next t) (goto q) (s.midRound p m) = .next (s.midRound q (m ++ [])) := by
  rw [List.append_nil]
  rfl

section
variable {s : State} (ha : s.agenda = [])
include ha

theorem step_rt_of_closed (hph : s.ph = .rt) (hi : s.i ≠ s.rounds) (hc : s.hctx.isOpen = false) :
    step s = .next (s.midRound .r1 []) := by
  have hlast : ¬ s.last = true := by simpa [State.last] using hi
  rw [step_of_agenda_nil ha, hph]
  exact (if_neg hlast).trans (issue_of_next (openContext_of_closed hc))

theorem step_rt_of_open (hph : s.ph = .rt) (hi : s.i ≠ s.rounds) (ho : s.hctx.isOpen = true) :
    step s = .refused .contextOpen := by
  have hlast : ¬ s.last = true := by simpa [State.last] using hi
  rw [step_of_agenda_nil ha, hph]
  refine (if_neg hlast).trans ?_
  simp [issue, openContext_of_open ho, andThen]

theorem step_midRound (p : Phase) (m : Bytes) :
    step (s.midRound p m) = exec (phaseInstr p) (s.midRound p m) :=
  step_of_agenda_nil ha

theorem step_r5 (m : Bytes) : step (s.midRound .r5 m) = .next (s.afterRound m) :=
  step_midRound ha .r5 m

variable (hjob : jobError s = none)
include hjob

theorem step_r1 (m : Bytes) :
    step (s.midRound .r1 m) = .next (s.midRound .r2 (m ++ s.feedBytes (if s.odd then .p else .c))) := by
  rw [step_midRound ha]
  show (if s.odd then _ else _) = _
  split
  · exact issue_feed_midRound hjob ..
  · exact issue_feed_midRound hjob ..

theorem step_r2 (m : Bytes) :
    step (s.midRound .r2 m) = .next (s.midRound .r3 (m ++ if s.sen then s.feedBytes .s else [])) := by
  rw [step_midRound ha]
  show (if s.sen then _ else _) = _
  split
  · exact issue_feed_midRound hjob ..
  · exact issue_nop_midRound ..

theorem step_r3 (m : Bytes) :
    step (s.midRound .r3 m) = .next (s.midRound .r4 (m ++ if s.pen then s.feedBytes .p else [])) := by
  rw [step_midRound ha]
  show (if s.pen then _ else _) = _
  split
  · exact issue_feed_midRound hjob ..
  · exact issue_nop_midRound ..

theorem step_r4 (m : Bytes) :
    step (s.midRound .r4 m) = .next (s.midRound .r5 (m ++ s.feedBytes (if s.odd then .c else .p))) := by
  rw [step_midRound ha]
  show (if s.odd then _ else _) = _
  split
  · exact issue_feed_midRound hjob ..
  · exact issue_feed_midRound hjob ..

/-- From RT with a round to go and a closed context, six steps hash the bytes of the round's buffers. -/
theorem run_six_of_closed (hph : s.ph = .rt) (hi : s.i ≠ s.rounds) (hc : s.hctx.isOpen = false) :
    Sys2Proof.core.run 6 s = .next (s.afterRound (s.roundFeeds.flatMap s.feedBytes)) := by
  rw [run_succ_of_next 5 (step_rt_of_closed ha hph hi hc), run_succ_of_next 4 (step_r1 ha hjob _),
    run_succ_of_next 3 (step_r2 ha hjob _), run_succ_of_next 2 (step_r3 ha hjob _),
    run_succ_of_next 1 (step_r4 ha hjob _), run_succ_of_next 0 (step_r5 ha _), run_zero]
  have hmessage : s.roundFeeds.flatMap s.feedBytes =
      [] ++ s.feedBytes (if s.odd then .p else .c) ++ (if s.sen then s.feedBytes .s else []) ++
        (if s.pen then s.feedBytes .p else []) ++ s.feedBytes (if s.odd then .c else .p) := by
    cases hs : s.sen <;> cases hp : s.pen <;> simp [State.roundFeeds, hs, hp]
  rw [hmessage]

end

/-- Settles O47: six steps and the round type hash the same bytes, or are both refused. -/
theorem sixStepsAreTheRoundType : Obligations.SixStepsAreTheRoundType := by
  intro s hph ha hi hjob
  rw [exec_roundInstr]
  cases hc : s.hctx.isOpen with
  | false => exact (run_six_of_closed ha hjob hph hi hc).trans (roundOf_of_closed hjob hc _).symm
  | true =>
    rw [run_succ, step_rt_of_open ha hph hi hc, roundOf_of_open hc]
    rfl

/-! ## The period -/

/-- `RTYPE` for the round counter `n` (R106). -/
def roundTypeCode (n : Nat) : Nat :=
  4 * (n % 2 == 1).toNat + 2 * (n % 3 != 0).toNat + (n % 7 != 0).toNat

theorem odd_eq (s : State) : s.odd = (s.i.toNat % 2 == 1) :=
  Nat.testBit_zero s.i.toNat

/-- Three bits put together, the first in bit 2. -/
theorem toNat_three_bits (a b c : Bool) :
    (BitVec.ofBool a ++ BitVec.ofBool b ++ BitVec.ofBool c).toNat = 4 * a.toNat + 2 * b.toNat + c.toNat := by
  revert a b c
  decide

theorem rtype_toNat (s : State) : s.rtype.toNat = roundTypeCode s.i.toNat := by
  rw [State.rtype, toNat_three_bits, odd_eq]
  rfl

/-- The three remainders of `n` are those of `n mod 42`. -/
theorem roundTypeCode_mod (n : Nat) : roundTypeCode (n % 42) = roundTypeCode n := by
  have h2 : n % 42 % 2 = n % 2 := Nat.mod_mod_of_dvd n (by decide)
  have h3 : n % 42 % 3 = n % 3 := Nat.mod_mod_of_dvd n (by decide)
  have h7 : n % 42 % 7 = n % 7 := Nat.mod_mod_of_dvd n (by decide)
  rw [roundTypeCode, h2, h3, h7, roundTypeCode]

/-- The 42 round types of R108. -/
def roundTypeTable : List Nat :=
  [0, 7, 3, 5, 3, 7, 1, 6, 3, 5, 3, 7, 1, 7, 2, 5, 3, 7, 1, 7, 3, 4, 3, 7, 1, 7, 3, 5,
    2, 7, 1, 7, 3, 5, 3, 6, 1, 7, 3, 5, 3, 7]

theorem roundTypeCode_eq_table : ∀ k < 42, roundTypeCode k = roundTypeTable.getD k 0 := by
  decide

/-- Settles O48: `RTYPE` depends on remainders that have period 42, and the table lists its values for the first 42 rounds. -/
theorem roundTypesHavePeriodFortyTwo : Obligations.RoundTypesHavePeriodFortyTwo := by
  intro s
  rw [rtype_toNat, ← roundTypeCode_mod]
  exact roundTypeCode_eq_table _ (Nat.mod_lt _ (by decide))

end Sys2Proof.Machine
end

section
/-! SUPPORT. The hash port (40_hash_port.md): the rules of its operations, each with the refusal of its `require` clause. -/
namespace Sys2Proof.Machine

/-! ## The rules -/

theorem Memory.readBytes_zero (m : Memory) (n : Nat) : m.readBytes 0 n = (List.range n).map m.read := by
  simp [Memory.readBytes]

/-- `MemWrite` writes its bytes and no other (00_scope.md R15). -/
theorem Memory.writtenAt_writeBytes (m : Memory) (off : Nat) (v : Bytes) : WrittenAt m (m.writeBytes off v) off v :=
  fun k => Memory.read_writeBytes v m off k

theorem feedWhole_of_open {x : Buf} {s : State} (ho : s.hctx.isOpen = true) (hx : s.wholeInRange x = true) :
    feedWhole x s = .next { s with hctx := ⟨true, s.hctx.msg ++ (List.range (s.feedLen x)).map (s.buf x).read⟩ } := by
  rw [← Memory.readBytes_zero]
  exact feedWhole_next.2 ⟨ho, hx, rfl⟩

theorem feedWhole_of_closed (x : Buf) {s : State} (hc : s.hctx.isOpen = false) :
    feedWhole x s = .refused .contextClosed := by
  simp [feedWhole, hc]

theorem cge_eq_false_iff {s : State} : s.cge = false ↔ s.cnt.toNat < s.dsz := by
  rw [← Bool.not_eq_true, State.cge, Nat.ble_eq, Nat.not_le]

theorem feedPartial_of_open {s : State} (ho : s.hctx.isOpen = true) (hcnt : s.cnt.toNat < s.dsz) :
    feedPartial s = .next { s with hctx := ⟨true, s.hctx.msg ++ (List.range s.cnt.toNat).map s.bufB.read⟩ } := by
  rw [← Memory.readBytes_zero]
  exact feedPartial_next.2 ⟨ho, cge_eq_false_iff.2 hcnt, rfl⟩

theorem feedPartial_of_closed {s : State} (hc : s.hctx.isOpen = false) : feedPartial s = .refused .contextClosed := by
  simp [feedPartial, hc]

theorem feedPartial_of_tooLong {s : State} (ho : s.hctx.isOpen = true) (hcnt : s.dsz ≤ s.cnt.toNat) :
    feedPartial s = .refused .partialFeedTooLong := by
  have hcge : s.cge = true := Nat.ble_eq ▸ hcnt
  simp [feedPartial, ho, hcge]

theorem hashFinish_of_open (x : Buf) {s : State} (ho : s.hctx.isOpen = true) :
    hashFinish x s =
      .next { s.setBuf x ((s.buf x).writeBytes 0 (hashBytes s.alg s.hctx.msg)) with hctx := ⟨false, []⟩ } :=
  hashFinish_next.2 ⟨ho, rfl⟩

theorem hashFinish_of_closed (x : Buf) {s : State} (hc : s.hctx.isOpen = false) :
    hashFinish x s = .refused .contextClosed := by
  simp [hashFinish, hc]

theorem appendBytes_appendBytes (s : State) (x y : Buf) (n k : Nat) :
    appendBytes y k (appendBytes x n s) =
      { s with hctx := ⟨true, s.hctx.msg ++ ((s.buf x).readBytes 0 n ++ (s.buf y).readBytes 0 k)⟩ } := by
  have hbuf : (appendBytes x n s).buf y = s.buf y := by cases y <;> rfl
  rw [appendBytes, hbuf, appendBytes_hctx, List.append_assoc]
  rfl

/-! ## The statements -/

/-- Settles O13: each destination is written by the same *finalise*. -/
theorem finaliseWritesTheDigest : Obligations.FinaliseWritesTheDigest := by
  intro s ho
  exact ⟨⟨_, hashFinish_of_open .b ho, Memory.writtenAt_writeBytes _ _ _⟩,
    ⟨_, hashFinish_of_open .c ho, Memory.writtenAt_writeBytes _ _ _⟩,
    ⟨_, hashFinish_of_open .t ho, Memory.writtenAt_writeBytes _ _ _⟩⟩

/-- Settles O8. -/
theorem hnewOpensAnEmptyMessage : Obligations.HnewOpensAnEmptyMessage :=
  fun _ => ⟨openContext_of_closed, openContext_of_open⟩

/-- Settles O9: the six feeds are one operation on six buffers; the digest buffers hold every digest. -/
theorem wholeFeedsAppendTheirBytes : Obligations.WholeFeedsAppendTheirBytes := by
  intro s ho
  refine ⟨fun hplen => ?_, fun hslen => ?_, feedWhole_of_open (x := .b) ho rfl, feedWhole_of_open (x := .c) ho rfl⟩
  · have hrange : fits s.plen.toNat s.pwMax = true := fits_iff.2 hplen
    exact ⟨feedWhole_of_open (x := .pw) ho hrange, feedWhole_of_open (x := .p) ho hrange⟩
  · have hrange : fits s.slen.toNat 16 = true := fits_iff.2 hslen
    exact ⟨feedWhole_of_open (x := .salt) ho hrange, feedWhole_of_open (x := .s) ho hrange⟩

/-- Settles O10. -/
theorem partialFeedAppendsAPrefixOfB : Obligations.PartialFeedAppendsAPrefixOfB :=
  fun _ => feedPartial_of_open

/-- Settles O11. -/
theorem hashPortRequiresAnOpenContext : Obligations.HashPortRequiresAnOpenContext := by
  intro s
  refine ⟨fun hc => ?_, feedPartial_of_tooLong⟩
  have feed (x : Buf) := feedWhole_of_closed x hc
  have finalise (x : Buf) := hashFinish_of_closed x hc
  simp only [List.forall_mem_cons]
  exact ⟨feed .pw, feed .salt, feed .b, feed .p, feed .s, feed .c, feedPartial_of_closed hc, finalise .b, finalise .c,
    finalise .t, List.forall_mem_nil _⟩

/-- Settles O14. -/
theorem digestSizeAndCuttingOfMessages : Obligations.DigestSizeAndCuttingOfMessages :=
  ⟨hashBytes_length, appendBytes_appendBytes⟩

end Sys2Proof.Machine
end

section
/-! SUPPORT. The machine's invariant in the phases that hash (40_hash_port.md R143, R145; 42_digest_setup.md R225;
43_round_loop.md R262): each goes on, into a state that meets `Inv`. -/
namespace Sys2Proof.Machine

/-- The answer is a next state, and `P` holds there: neither a fault nor a refusal. -/
def Meets (P : State → Prop) (a : Answer) : Prop := ∃ t, a = .next t ∧ P t

theorem Meets.next {P : State → Prop} {t : State} (h : P t) : Meets P (.next t) := ⟨t, rfl, h⟩

/-- A phase meets `Q` when its writes of counters and `PH` lead there from what its micro-operation meets. -/
theorem Meets.issue {P Q : State → Prop} {u : State → Answer} {finish : State → State} {s : State} (hu : Meets P (u s))
    (hfinish : ∀ t, P t → Q (finish t)) : Meets Q (issue u finish s) := by
  obtain ⟨t, hut, ht⟩ := hu
  exact ⟨finish t, issue_of_next hut, hfinish t ht⟩

theorem Meets.ite {P : State → Prop} {c : Prop} [Decidable c] {a b : Answer} (ha : c → Meets P a)
    (hb : ¬c → Meets P b) : Meets P (if c then a else b) := by
  split
  · next h => exact ha h
  · next h => exact hb h

/-! ## Buffers in canonical form -/

/-- Every buffer has its size and its canonical form, as `Inv.buffers` says. -/
def State.buffersWf (s : State) : Prop := ∀ x, (s.buf x).wf (s.bufSize x) = true

theorem bufSize_setBuf (s : State) (x y : Buf) (m : Memory) : (s.setBuf x m).bufSize y = s.bufSize y := by
  cases y <;> simp [State.bufSize]

theorem buffersWf_setBuf {s : State} {x : Buf} {m : Memory} (h : s.buffersWf) (hm : m.wf (s.bufSize x) = true) :
    (s.setBuf x m).buffersWf := by
  intro y
  rw [bufSize_setBuf]
  by_cases hyx : y = x
  · subst hyx
    rwa [buf_setBuf_self]
  · rw [buf_setBuf_ne s x y m hyx]
    exact h y

theorem buffersWf_hashFinish {s : State} {x : Buf} (h : s.buffersWf) (hx : s.bufSize x = 64) (m : Bytes) :
    (s.setBuf x ((s.buf x).writeBytes 0 (hashBytes s.alg m))).buffersWf := by
  refine buffersWf_setBuf h (Memory.wf_writeBytes _ (h x) ?_)
  rw [hashBytes_length, hx, Nat.zero_add]
  exact digestSize_le s.alg

/-- A length that CHK accepts lies inside the buffer that is read or filled with it (00_scope.md R15). -/
theorem feedLen_le_bufSize {s : State} (hjob : jobError s = none) (x : Buf) : s.feedLen x ≤ s.bufSize x := by
  obtain ⟨-, hslen, hplen⟩ := jobError_none.1 hjob
  cases x with
  | pw | p => exact hplen
  | salt | s => exact hslen
  | b | c | t => exact digestSize_le s.alg
  | enc => exact Nat.le_refl 86

theorem buffersWf_fill {s : State} (x : Buf) (h : s.buffersWf) (hjob : jobError s = none) (d : Bytes) :
    (s.setBuf x ((s.buf x).writeBytes 0 (rep d (s.feedLen x)))).buffersWf := by
  refine buffersWf_setBuf h (Memory.wf_writeBytes _ (h x) ?_)
  rw [rep_length, Nat.zero_add]
  exact feedLen_le_bufSize hjob x

/-! ## The states of a job between CHK and the encoder -/

/-- What `Inv` says of a job that has passed CHK and is not yet encoded, but for the phase and the loop counters; the hash
context is open or closed as `opened` says. -/
structure Hashing (opened : Bool) (s : State) : Prop where
  buffers : s.buffersWf
  pwMax_le : s.pwMax ≤ 2 ^ 30
  context : s.hctx.isOpen = opened
  closed_empty : s.hctx.isOpen = false → s.hctx.msg = []
  job : jobError s = none
  err : s.err = 0
  group : s.g = 0
  text : s.enc = []
  agenda : s.agenda.all Turn.external = true

/-- The range of the loop counter that a phase uses, as `Inv` says it phase by phase. -/
def LoopFits (p : Phase) (s : State) : Prop :=
  match p with
  | .a3 | .a4 | .dp1 => s.cnt.toNat ≤ s.plen.toNat
  | .ds1 => s.cnt.toNat ≤ 271
  | .rt => s.i.toNat ≤ s.rounds.toNat
  | .r1 | .r2 | .r3 | .r4 | .r5 => s.i.toNat < s.rounds.toNat
  | .e0 => s.i = s.rounds
  | _ => True

theorem groupCount_pos (alg : Byte) : 0 < groupCount alg := by
  unfold groupCount
  split
  · decide
  · split
    · decide
    · omega

theorem Inv.hashing {s : State} (h : Inv s) (hrunning : runningIn s.ph = true) (he : s.ph ≠ .e0) :
    Hashing (contextOpenIn s.ph) s where
  buffers := h.buffers
  pwMax_le := h.pwMax_le
  context := h.context
  closed_empty := h.closed_empty
  job := h.job hrunning
  err := h.err_iff.2 fun hp => by simp [hp, runningIn] at hrunning
  group := h.group_zero hrunning he
  text := h.text (fun hp => by simp [hp, runningIn] at hrunning) he fun hp => by simp [hp, runningIn] at hrunning
  agenda := h.agenda

theorem Inv.loopFits {s : State} (h : Inv s) : LoopFits s.ph s := by
  have hopen := h.round_open
  cases hp : s.ph with
  | a3 | a4 | dp1 => exact h.cnt_plen (by simp [hp])
  | ds1 => exact h.cnt_salt hp
  | rt => exact h.round_test hp
  | r1 | r2 | r3 | r4 | r5 =>
    rw [hp] at hopen
    exact hopen rfl
  | e0 => exact h.round_end hp
  | _ => trivial

/-- Entering a phase: beside the clear state in B0, the context and the loop counter are all that `Inv` asks of the phase. -/
theorem Hashing.inv_goto {p : Phase} {t : State} (h : Hashing (contextOpenIn p) t) (hrunning : runningIn p = true)
    (hquiet : p = .b0 → clearInternal t = t) (hloop : LoopFits p t) : Inv (goto p t) where
  buffers := h.buffers
  pwMax_le := h.pwMax_le
  context := h.context
  closed_empty := h.closed_empty
  job _ := h.job
  err_range := by simp [h.err]
  err_iff := by
    refine iff_of_true h.err fun hp => ?_
    simp only [goto_ph] at hp
    simp [hp, runningIn] at hrunning
  cnt_plen hp := by
    obtain rfl | rfl | rfl : p = .a3 ∨ p = .a4 ∨ p = .dp1 := hp
    all_goals exact hloop
  cnt_salt hp := by
    obtain rfl : p = .ds1 := hp
    exact hloop
  round_test hp := by
    obtain rfl : p = .rt := hp
    exact hloop
  round_open hp := by
    rw [goto_ph] at hp
    cases p with
    | r1 | r2 | r3 | r4 | r5 => exact hloop
    | _ => cases hp
  round_end hp := by
    obtain rfl : p = .e0 := hp
    exact hloop
  group_zero _ _ := h.group
  group_lt _ := by
    rw [goto_g, h.group]
    exact groupCount_pos _
  text _ _ _ := h.text
  quiet hp := by
    obtain rfl | rfl | rfl : p = .idle ∨ p = .err ∨ p = .b0 := hp
    · cases hrunning
    · cases hrunning
    · exact congrArg (goto .b0) (hquiet rfl)
  agenda := h.agenda

theorem Hashing.setCnt {opened : Bool} {t : State} (h : Hashing opened t) (v : Word32) : Hashing opened (setCnt v t) where
  __ := h

theorem Hashing.setI {opened : Bool} {t : State} (h : Hashing opened t) (v : Word32) : Hashing opened (setI v t) where
  __ := h

theorem Hashing.setContext {opened : Bool} {s : State} (h : Hashing opened s) (c : HashContext)
    (hc : c.isOpen = false → c.msg = []) : Hashing c.isOpen { s with hctx := c } :=
  { h with context := rfl, closed_empty := hc }

theorem Hashing.setBuf {opened : Bool} {s : State} {x : Buf} {m : Memory} (h : Hashing opened s) (hx : x ≠ .enc)
    (hm : (s.setBuf x m).buffersWf) : Hashing opened (s.setBuf x m) where
  buffers := hm
  pwMax_le := by rw [setBuf_pwMax]; exact h.pwMax_le
  context := by rw [setBuf_hctx]; exact h.context
  closed_empty := by rw [setBuf_hctx]; exact h.closed_empty
  job := by
    have hjob := h.job
    rw [jobError_none] at hjob ⊢
    simpa using hjob
  err := by rw [setBuf_err]; exact h.err
  group := by rw [setBuf_g]; exact h.group
  text := (buf_setBuf_ne s x .enc m hx.symm).trans h.text
  agenda := by rw [setBuf_agenda]; exact h.agenda

/-! ## The micro-operations of such a job -/

/-- A micro-operation has gone on from `s` to `t`, a hashing state with the counters and the job of `s`. -/
structure Issued (s : State) (opened : Bool) (t : State) : Prop extends Hashing opened t where
  cnt : t.cnt = s.cnt
  i : t.i = s.i
  plen : t.plen = s.plen
  rounds : t.rounds = s.rounds

theorem Issued.loopFits {s t : State} {opened : Bool} {p : Phase} (h : Issued s opened t) (hloop : LoopFits p s) :
    LoopFits p t := by
  unfold LoopFits at hloop ⊢
  rwa [h.cnt, h.i, h.plen, h.rounds]

theorem issued_of_keeps {s t : State} {opened : Bool} {a : Answer} (ha : a = .next t) (ht : Hashing opened t)
    (hcounters : KeepsCounters s a) (hhost : KeepsHostSide s a) : Meets (Issued s opened) a := by
  obtain ⟨hcnt, hi, -⟩ := hcounters t ha
  obtain ⟨-, hrounds, -, hplen, -⟩ := hostSide_eq_iff.1 (hhost t ha)
  exact ⟨t, ha, ht, hcnt, hi, hplen, hrounds⟩

section
variable {s : State}

theorem Hashing.nop {opened : Bool} (h : Hashing opened s) : Meets (Issued s opened) (.next s) :=
  issued_of_keeps rfl h (.next rfl rfl rfl) (.next rfl)

theorem Hashing.new (h : Hashing false s) : Meets (Issued s true) (openContext s) :=
  issued_of_keeps (openContext_of_closed h.context) (h.setContext ⟨true, []⟩ nofun) (openContext_keepsCounters s)
    (openContext_keepsHostSide s)

theorem Hashing.feed (h : Hashing true s) (x : Buf) : Meets (Issued s true) (feedWhole x s) :=
  issued_of_keeps (feedWhole_of_open h.context (wholeInRange_of_job h.job x)) (h.setContext ⟨true, _⟩ nofun)
    (feedWhole_keepsCounters x s) (feedWhole_keepsHostSide x s)

theorem Hashing.feedPartial (h : Hashing true s) (hcge : s.cge = false) : Meets (Issued s true) (feedPartial s) :=
  issued_of_keeps (feedPartial_of_open h.context (cge_eq_false_iff.1 hcge)) (h.setContext ⟨true, _⟩ nofun)
    (feedPartial_keepsCounters s) (feedPartial_keepsHostSide s)

theorem Hashing.finalise (h : Hashing true s) {x : Buf} (hx : x = .b ∨ x = .c ∨ x = .t) :
    Meets (Issued s false) (hashFinish x s) := by
  obtain ⟨hsize, henc, hinternal⟩ : s.bufSize x = 64 ∧ x ≠ .enc ∧ isInternal x = true := by
    obtain rfl | rfl | rfl := hx <;> exact ⟨rfl, nofun, rfl⟩
  exact issued_of_keeps (hashFinish_of_open x h.context)
    ((h.setBuf henc (buffersWf_hashFinish h.buffers hsize _)).setContext ⟨false, []⟩ fun _ => rfl)
    (hashFinish_keepsCounters x s) (hashFinish_keepsHostSide hinternal s)

theorem Hashing.fill {opened : Bool} (h : Hashing opened s) {x : Buf} (hx : x = .p ∨ x = .s) :
    Meets (Issued s opened) (fillFromT x s) := by
  obtain ⟨henc, hinternal⟩ : x ≠ .enc ∧ isInternal x = true := by
    obtain rfl | rfl := hx <;> exact ⟨nofun, rfl⟩
  exact issued_of_keeps (fillFromT_next.2 ⟨wholeInRange_of_job h.job x, rfl⟩)
    (h.setBuf henc (buffersWf_fill x h.buffers h.job _)) (fillFromT_keepsCounters x s)
    (fillFromT_keepsHostSide hinternal s)

end

/-! ## The phases of such a job -/

/-- A phase between CHK and the encoder: the micro-operation leaves a hashing state, and the phase entered finds its context
and its loop counter. -/
theorem Meets.enter {s : State} {u : State → Answer} {p : Phase} (hu : Meets (Issued s (contextOpenIn p)) (u s))
    (hp : runningIn p = true ∧ p ≠ .b0) (hloop : LoopFits p s) : Meets Inv (Machine.issue u (goto p) s) :=
  hu.issue fun _ ht => ht.inv_goto hp.1 (absurd · hp.2) (ht.loopFits hloop)

theorem Meets.enter_setCnt {s : State} {u : State → Answer} {p : Phase} {v : Word32}
    (hu : Meets (Issued s (contextOpenIn p)) (u s)) (hp : runningIn p = true ∧ p ≠ .b0)
    (hloop : LoopFits p (setCnt v s)) : Meets Inv (Machine.issue u (fun t => goto p (setCnt v t)) s) := by
  refine hu.issue fun t ht => (ht.setCnt v).inv_goto hp.1 (absurd · hp.2) ?_
  simpa only [LoopFits, setCnt_cnt, setCnt_i, setCnt_plen, setCnt_rounds, ht.i, ht.plen, ht.rounds] using hloop

theorem Meets.enter_setI {s : State} {u : State → Answer} {p : Phase} {v : Word32}
    (hu : Meets (Issued s (contextOpenIn p)) (u s)) (hp : runningIn p = true ∧ p ≠ .b0) (hloop : LoopFits p (setI v s)) :
    Meets Inv (Machine.issue u (fun t => goto p (setI v t)) s) := by
  refine hu.issue fun t ht => (ht.setI v).inv_goto hp.1 (absurd · hp.2) ?_
  simpa only [LoopFits, setI_cnt, setI_i, setI_plen, setI_rounds, ht.cnt, ht.plen, ht.rounds] using hloop

/-- A countdown stays in its range: it never takes more than is left. -/
theorem toNat_sub_ofNat_le {v : Word32} {n : Nat} (hn : n ≤ v.toNat) : (v - BitVec.ofNat 32 n).toNat ≤ v.toNat := by
  have hv := v.isLt
  rw [BitVec.toNat_sub, BitVec.toNat_ofNat]
  omega

theorem toNat_sub_dsz_le {s : State} (hcge : s.cge = true) : (s.cnt - BitVec.ofNat 32 s.dsz).toNat ≤ s.cnt.toNat :=
  toNat_sub_ofNat_le (Nat.ble_eq ▸ hcge)

theorem toNat_sub_one_le {s : State} (hcz : ¬ s.cz = true) : (s.cnt - 1).toNat ≤ s.cnt.toNat := by
  have hcnt : s.cnt ≠ 0 := by simpa [State.cz] using hcz
  exact toNat_sub_ofNat_le (by bv_omega)

theorem toNat_shiftRight_one_le (v : Word32) : (v >>> 1).toNat ≤ v.toNat := by
  rw [BitVec.toNat_ushiftRight]
  exact Nat.shiftRight_le _ _

/-- The repetitions of the salt, `16 + C[0]`, are at most 271 (42_digest_setup.md R216). -/
theorem toNat_saltCount_le (c : Byte) : ((16 : Word32) + c.setWidth 32).toNat ≤ 271 := by
  bv_omega

theorem eq_rounds_of_last {s : State} (h : s.last = true) : s.i = s.rounds := by
  simpa [State.last] using h

/-- A round is opened only below `ROUNDS`, so that `I + 1` does not wrap (43_round_loop.md R262). -/
theorem lt_rounds_of_not_last {s : State} (h : ¬ s.last = true) (hle : s.i.toNat ≤ s.rounds.toNat) :
    s.i.toNat < s.rounds.toNat := by
  have hne : s.i ≠ s.rounds := by simpa [State.last] using h
  bv_omega

theorem toNat_add_one_le {v w : Word32} (h : v.toNat < w.toNat) : (v + 1).toNat ≤ w.toNat := by
  bv_omega

theorem Hashing.exec_phaseInstr {p : Phase} {s : State} (h : Hashing (contextOpenIn p) s) (hrunning : runningIn p = true)
    (he : p ≠ .e0) (hloop : LoopFits p s) : Meets Inv (exec (phaseInstr p) s) := by
  cases p with
  | idle | chk | done | err => cases hrunning
  | b0 => exact h.new.enter (p := .b1) ⟨rfl, nofun⟩ trivial
  | b1 => exact (h.feed .pw).enter (p := .b2) ⟨rfl, nofun⟩ trivial
  | b2 => exact (h.feed .salt).enter (p := .b3) ⟨rfl, nofun⟩ trivial
  | b3 => exact (h.feed .pw).enter (p := .b4) ⟨rfl, nofun⟩ trivial
  | b4 => exact (h.finalise (.inl rfl)).enter (p := .a0) ⟨rfl, nofun⟩ trivial
  | a0 => exact h.new.enter (p := .a1) ⟨rfl, nofun⟩ trivial
  | a1 => exact (h.feed .pw).enter (p := .a2) ⟨rfl, nofun⟩ trivial
  | a2 => exact (h.feed .salt).enter_setCnt (p := .a3) ⟨rfl, nofun⟩ le_rfl
  | a3 =>
    refine .ite (fun hcge => ?copy) (fun hcge => ?rest)
    case copy => exact (h.feed .b).enter_setCnt (p := .a3) ⟨rfl, nofun⟩ ((toNat_sub_dsz_le hcge).trans hloop)
    case rest => exact (h.feedPartial (Bool.eq_false_iff.2 hcge)).enter_setCnt (p := .a4) ⟨rfl, nofun⟩ le_rfl
  | a4 =>
    have hshift := (toNat_shiftRight_one_le s.cnt).trans hloop
    refine .ite (fun _ => ?stop) (fun _ => .ite (fun _ => ?one) (fun _ => ?zero))
    case stop => exact h.nop.enter (p := .a5) ⟨rfl, nofun⟩ trivial
    case one => exact (h.feed .b).enter_setCnt (p := .a4) ⟨rfl, nofun⟩ hshift
    case zero => exact (h.feed .pw).enter_setCnt (p := .a4) ⟨rfl, nofun⟩ hshift
  | a5 => exact (h.finalise (.inr (.inl rfl))).enter (p := .dp0) ⟨rfl, nofun⟩ trivial
  | dp0 => exact h.new.enter_setCnt (p := .dp1) ⟨rfl, nofun⟩ le_rfl
  | dp1 =>
    exact .ite (fun _ => h.nop.enter (p := .dp2) ⟨rfl, nofun⟩ trivial) fun hcz =>
      (h.feed .pw).enter_setCnt (p := .dp1) ⟨rfl, nofun⟩ ((toNat_sub_one_le hcz).trans hloop)
  | dp2 => exact (h.finalise (.inr (.inr rfl))).enter (p := .p0) ⟨rfl, nofun⟩ trivial
  | p0 => exact (h.fill (.inl rfl)).enter (p := .ds0) ⟨rfl, nofun⟩ trivial
  | ds0 => exact h.new.enter_setCnt (p := .ds1) ⟨rfl, nofun⟩ (toNat_saltCount_le _)
  | ds1 =>
    exact .ite (fun _ => h.nop.enter (p := .ds2) ⟨rfl, nofun⟩ trivial) fun hcz =>
      (h.feed .salt).enter_setCnt (p := .ds1) ⟨rfl, nofun⟩ ((toNat_sub_one_le hcz).trans hloop)
  | ds2 => exact (h.finalise (.inr (.inr rfl))).enter (p := .s0) ⟨rfl, nofun⟩ trivial
  | s0 => exact (h.fill (.inr rfl)).enter_setI (p := .rt) ⟨rfl, nofun⟩ (Nat.zero_le _)
  | rt =>
    exact .ite (fun hlast => h.nop.enter (p := .e0) ⟨rfl, nofun⟩ (eq_rounds_of_last hlast)) fun hlast =>
      h.new.enter (p := .r1) ⟨rfl, nofun⟩ (lt_rounds_of_not_last hlast hloop)
  | r1 =>
    exact .ite (fun _ => (h.feed .p).enter (p := .r2) ⟨rfl, nofun⟩ hloop) fun _ =>
      (h.feed .c).enter (p := .r2) ⟨rfl, nofun⟩ hloop
  | r2 =>
    exact .ite (fun _ => (h.feed .s).enter (p := .r3) ⟨rfl, nofun⟩ hloop) fun _ =>
      h.nop.enter (p := .r3) ⟨rfl, nofun⟩ hloop
  | r3 =>
    exact .ite (fun _ => (h.feed .p).enter (p := .r4) ⟨rfl, nofun⟩ hloop) fun _ =>
      h.nop.enter (p := .r4) ⟨rfl, nofun⟩ hloop
  | r4 =>
    exact .ite (fun _ => (h.feed .c).enter (p := .r5) ⟨rfl, nofun⟩ hloop) fun _ =>
      (h.feed .p).enter (p := .r5) ⟨rfl, nofun⟩ hloop
  | r5 => exact (h.finalise (.inr (.inl rfl))).enter_setI (p := .rt) ⟨rfl, nofun⟩ (toNat_add_one_le hloop)
  | e0 => exact absurd rfl he

end Sys2Proof.Machine
end

section
/-! SUPPORT. The machine's invariant at job start and error entry (R49, R400), in the encoder (44_mcf_encoder.md R297) and at
the host port (R325): every turn of a state that meets `Inv` goes on, into a state that meets it again. -/
namespace Sys2Proof.Machine

/-! ## CHK and error entry -/

/-- The internal buffers are empty; `PW` and `SALT` are the host's. -/
theorem Inv.buffersWf_clearInternal {s : State} (h : Inv s) : (clearInternal s).buffersWf := by
  intro x
  cases x with
  | pw => exact h.buffers .pw
  | salt => exact h.buffers .salt
  | b | p | s | c | t | enc => rfl

theorem Inv.raiseError {s : State} (h : Inv s) {e : Byte} (he : 1 ≤ e.toNat ∧ e.toNat ≤ 3) : Inv (raiseError e s) where
  buffers := h.buffersWf_clearInternal
  pwMax_le := h.pwMax_le
  context := rfl
  closed_empty _ := rfl
  job := nofun
  err_range := he.2
  err_iff := by
    refine iff_of_false (fun hzero => ?_) fun hp => hp rfl
    rw [raiseError_err] at hzero
    simp [hzero] at he
  cnt_plen := by simp
  cnt_salt := nofun
  round_test := nofun
  round_open := nofun
  round_end := nofun
  group_zero _ _ := rfl
  group_lt := nofun
  text _ _ _ := rfl
  quiet _ := rfl
  agenda := h.agenda

theorem Inv.acceptJob {s : State} (h : Inv s) (hp : s.ph = .chk) (hjob : jobError s = none) :
    Inv (goto .b0 (clearInternal s)) := by
  have hcleared : Hashing false (clearInternal s) :=
    { buffers := h.buffersWf_clearInternal
      pwMax_le := h.pwMax_le
      context := rfl
      closed_empty := fun _ => rfl
      job := hjob
      err := h.err_iff.2 (by simp [hp])
      group := rfl
      text := rfl
      agenda := h.agenda }
  exact hcleared.inv_goto (p := .b0) rfl (fun _ => rfl) trivial

/-- CHK raises the codes 0x01 and 0x02 alone (60_exceptions.md R394, R395). -/
theorem eq_of_jobError {s : State} {e : Byte} (h : jobError s = some e) :
    e = errUnsupportedAlgorithm ∨ e = errBadLength := by
  unfold jobError at h
  split at h
  · exact .inl (Option.some.inj h).symm
  · split at h
    · exact .inr (Option.some.inj h).symm
    · cases h

theorem Inv.checkJob {s : State} (h : Inv s) (hp : s.ph = .chk) : Meets Inv (checkJob (goto .b0) s) := by
  cases herror : jobError s with
  | some e =>
    have he : 1 ≤ e.toNat ∧ e.toNat ≤ 3 := by
      obtain rfl | rfl := eq_of_jobError herror <;> decide
    exact ⟨_, checkJob_next.2 (.inl ⟨e, herror, rfl⟩), h.raiseError he⟩
  | none => exact ⟨_, checkJob_next.2 (.inr ⟨herror, rfl⟩), h.acceptJob hp herror⟩

/-! ## The encoder -/

theorem groupCount_le (alg : Byte) : groupCount alg ≤ 22 := by
  unfold groupCount
  split
  · decide
  · split
    · decide
    · omega

/-- The three entries of every group but the last are in the table (44_mcf_encoder.md R282, R283, R291). -/
theorem exists_permEntry {alg : Byte} (halg : alg = 5 ∨ alg = 6) {pos : Nat} (hpos : pos < 3 * (groupCount alg - 1)) :
    ∃ k, permEntry alg pos = some k := by
  obtain rfl | rfl := halg
  · have hlen : pos < perm256.length := Nat.lt_trans hpos (by decide)
    exact ⟨_, List.getElem?_eq_getElem hlen⟩
  · have hlen : pos < perm512.length := Nat.lt_trans hpos (by decide)
    exact ⟨_, List.getElem?_eq_getElem hlen⟩

theorem groupIsFull_iff {s : State} : s.groupIsFull = true ↔ s.g.toNat < groupCount s.alg - 1 := by
  rw [State.groupIsFull, Nat.blt_eq]

theorem buffersWf_emitGroup {s : State} (h : s.buffersWf) {off n : Nat} (hoff : off + n ≤ 86) (b0 b1 b2 : Byte) :
    (emitGroup off n b0 b1 b2 s).buffersWf := by
  refine buffersWf_setBuf (x := .enc) h (Memory.wf_writeBytes _ (h .enc) ?_)
  rw [List.length_take]
  exact (Nat.add_le_add_left (Nat.min_le_left _ _) off).trans hoff

theorem goto_of_ph {p : Phase} {s : State} (h : s.ph = p) : goto p s = s := by
  subst h
  rfl

section
variable {s : State} {off n : Nat}

theorem Inv.nextGroup (h : Inv s) (hp : s.ph = .e0) (hoff : off + n ≤ 86) {b0 b1 b2 : Byte} {g : BitVec 5}
    (hg : g.toNat < groupCount s.alg) : Inv (goto .e0 (setG g (emitGroup off n b0 b1 b2 s))) := by
  rw [goto_of_ph (show (setG g (emitGroup off n b0 b1 b2 s)).ph = .e0 from hp)]
  exact
    { h with
      buffers := buffersWf_emitGroup h.buffers hoff b0 b1 b2
      group_zero := fun _ he => absurd hp he
      group_lt := fun _ => hg
      text := fun _ he _ => absurd hp he
      quiet := by simp [hp] }

theorem Inv.lastGroup (h : Inv s) (hp : s.ph = .e0) (hoff : off + n ≤ 86) {b0 b1 b2 : Byte} :
    Inv (goto .done (emitGroup off n b0 b1 b2 s)) where
  buffers := buffersWf_emitGroup h.buffers hoff b0 b1 b2
  pwMax_le := h.pwMax_le
  context := h.context.trans (by rw [hp]; rfl)
  closed_empty := h.closed_empty
  job := nofun
  err_range := h.err_range
  err_iff := iff_of_true (h.err_iff.2 (by simp [hp])) nofun
  cnt_plen := by simp
  cnt_salt := nofun
  round_test := nofun
  round_open := nofun
  round_end := nofun
  group_zero := nofun
  group_lt := nofun
  text _ _ hdone := absurd rfl hdone
  quiet := by simp
  agenda := h.agenda

/-- Phase E0 stays in the text: full group `G` ends at `4·G + 4`, the last groups end at 43 and 86 (44_mcf_encoder.md R294). -/
theorem Inv.execPhE0 (h : Inv s) (hp : s.ph = .e0) : Meets Inv (execPhE0 s) := by
  refine .ite (fun hfull => ?full) fun _ => .ite (fun _ => ?last256) fun _ => ?last512
  case full =>
    have hg := groupIsFull_iff.1 hfull
    have hcount := groupCount_le s.alg
    obtain ⟨halg, -, -⟩ := jobError_none.1 (h.job (by rw [hp]; rfl))
    obtain ⟨i0, h0⟩ := exists_permEntry halg (pos := 3 * s.g.toNat) (by omega)
    obtain ⟨i1, h1⟩ := exists_permEntry halg (pos := 3 * s.g.toNat + 1) (by omega)
    obtain ⟨i2, h2⟩ := exists_permEntry halg (pos := 3 * s.g.toNat + 2) (by omega)
    have hnext : (s.g + 1).toNat < groupCount s.alg := by
      rw [BitVec.toNat_add]
      exact (Nat.mod_le _ _).trans_lt (Nat.add_lt_of_lt_sub hg)
    exact ⟨_, issue_of_next (encodeFullGroup_next.2 ⟨hfull, i0, i1, i2, h0, h1, h2, rfl⟩),
      h.nextGroup hp (by omega) hnext⟩
  case last256 => exact .next (h.lastGroup (off := 40) (n := 3) hp (by decide))
  case last512 => exact .next (h.lastGroup (off := 84) (n := 2) hp (by decide))

end

/-- The sequencer's step from any phase. -/
theorem Inv.exec_phaseInstr {s : State} (h : Inv s) : Meets Inv (exec (phaseInstr s.ph) s) := by
  cases hrunning : runningIn s.ph with
  | true =>
    by_cases he : s.ph = .e0
    · rw [he]
      exact h.execPhE0 he
    · exact (h.hashing hrunning he).exec_phaseInstr hrunning he h.loopFits
  | false =>
    cases hp : s.ph with
    | idle | done | err => exact .next h
    | chk => exact h.checkJob hp
    | _ => simp [hp, runningIn] at hrunning

/-! ## The host port and reset -/

section
variable {s : State}

theorem Inv.setAgenda (h : Inv s) {rest : List Turn} (hrest : rest.all Turn.external = true) :
    Inv { s with agenda := rest } :=
  { h with
    quiet := fun hp => congrArg (fun t : State => { t with agenda := rest }) (h.quiet hp)
    agenda := hrest }

theorem Inv.reply (h : Inv s) (v : Word32) : Inv (reply v s) :=
  { h with quiet := fun hp => congrArg (Machine.reply v) (h.quiet hp) }

theorem Inv.toReset (h : Inv s) : Inv (toReset s) :=
  { invHoldsAtReset with
    buffers := fun x => by cases x <;> rfl
    pwMax_le := h.pwMax_le
    group_lt := nofun
    quiet := fun _ => rfl
    agenda := h.agenda }

theorem not_running_of_not_busy (hb : s.busy = false) : runningIn s.ph ≠ true := by
  rw [← Bool.not_eq_true, busy_iff] at hb
  cases hp : s.ph with
  | idle | chk | done | err => nofun
  | _ => simp [hp] at hb

theorem runningIn_of_contextOpenIn {p : Phase} (h : contextOpenIn p = true) : runningIn p = true := by
  cases p with
  | idle | chk | done | err => cases h
  | _ => rfl

theorem contextOpenIn_of_insideRound {p : Phase} (h : insideRound p = true) : contextOpenIn p = true := by
  cases p with
  | r1 | r2 | r3 | r4 | r5 => rfl
  | _ => cases h

/-- Outside BUSY the host may give the job registers any value, within the sizes of `SALT` and `PW`: no clause about a
running phase speaks of them. -/
theorem Inv.setInputs (h : Inv s) (hb : s.busy = false) (alg slen : Byte) (rounds plen : Word32) {salt pw : Memory}
    (hsalt : salt.wf 16 = true) (hpw : pw.wf s.pwMax = true) :
    Inv { s with alg := alg, rounds := rounds, slen := slen, plen := plen, salt := salt, pw := pw } := by
  have hrest := not_running_of_not_busy hb
  have hne {p : Phase} (hp : s.ph = p) : runningIn p ≠ true := hp ▸ hrest
  exact
    { h with
      buffers := fun x => by
        have hx := h.buffers x
        cases x with
        | pw => exact hpw
        | salt => exact hsalt
        | b | p | s | c | t | enc => exact hx
      job := fun hp => absurd hp hrest
      cnt_plen := fun hp => by obtain hp | hp | hp := hp <;> exact absurd rfl (hne hp)
      round_test := fun hp => absurd rfl (hne hp)
      round_open := fun hp => absurd (runningIn_of_contextOpenIn (contextOpenIn_of_insideRound hp)) hrest
      round_end := fun hp => absurd rfl (hne hp)
      group_lt := fun hp => absurd rfl (hne hp)
      quiet := fun hp => congrArg (fun t : State =>
        { t with alg := alg, rounds := rounds, slen := slen, plen := plen, salt := salt, pw := pw }) (h.quiet hp) }

theorem Inv.startJob (h : Inv s) (hb : s.busy = false) : Inv (startJob s) where
  buffers := h.buffers
  pwMax_le := h.pwMax_le
  context := h.context.trans (Bool.eq_false_iff.2 fun hopen =>
    not_running_of_not_busy hb (runningIn_of_contextOpenIn hopen))
  closed_empty := h.closed_empty
  job := nofun
  err_range := Nat.zero_le 3
  err_iff := iff_of_true rfl nofun
  cnt_plen := by simp
  cnt_salt := nofun
  round_test := nofun
  round_open := nofun
  round_end := nofun
  group_zero := nofun
  group_lt := nofun
  text hchk := absurd rfl hchk
  quiet := by simp
  agenda := h.agenda

theorem Inv.command (h : Inv s) (hb : s.busy = false) (code : Byte) : Inv (command code s) := by
  by_cases hstart : code = 0x01
  · rw [hstart, command_start]
    exact h.startJob hb
  · by_cases hclear : code = 0x02
    · rw [hclear, command_clear]
      exact h.toReset
    · rw [command_reserved s ⟨hstart, hclear⟩]
      exact h.raiseError (e := errBadCommand) (by decide)

theorem Inv.hostWriteObj (h : Inv s) (hb : s.busy = false) (obj : Obj) (idx v : Word32) :
    Inv (hostWriteObj obj idx v s) := by
  have hsalt : s.salt.wf 16 = true := h.buffers .salt
  have hpw : s.pw.wf s.pwMax = true := h.buffers .pw
  cases obj with
  | ctrl => exact h.command hb _
  | alg => exact h.setInputs hb (v.setWidth 8) s.slen s.rounds s.plen hsalt hpw
  | rounds => exact h.setInputs hb s.alg s.slen v s.plen hsalt hpw
  | slen => exact h.setInputs hb s.alg (v.setWidth 8) s.rounds s.plen hsalt hpw
  | plen => exact h.setInputs hb s.alg s.slen s.rounds v hsalt hpw
  | salt =>
    unfold Machine.hostWriteObj
    dsimp only
    split
    · next hidx => exact h.setInputs hb s.alg s.slen s.rounds s.plen (Memory.wf_write _ hsalt hidx) hpw
    · exact h
  | pw =>
    unfold Machine.hostWriteObj
    dsimp only
    split
    · next hidx => exact h.setInputs hb s.alg s.slen s.rounds s.plen hsalt (Memory.wf_write _ hpw hidx)
    · exact h
  | status | err | digest | enc | reserved7 | reservedC | reservedD | reservedE | reservedF => exact h

theorem Inv.unlessBusy (h : Inv s) {f : State → State} (hf : s.busy = false → Inv (f s)) : Inv (unlessBusy f s) := by
  cases hb : s.busy with
  | true => rwa [unlessBusy_of_busy hb]
  | false =>
    rw [unlessBusy_of_not_busy hb]
    exact hf hb

theorem Inv.exec_access (h : Inv s) {i : Instr} (hi : i.format = .ha) : Meets Inv (exec i s) := by
  cases i with
  | rd obj idx => exact .next (h.reply _)
  | wr obj idx data => exact .next (h.unlessBusy fun hb => h.hostWriteObj hb obj idx data)
  | _ => cases hi

end

/-! ## Steps -/

theorem external_word_iff {f : Format} {w : Nat} :
    (Turn.word f w).external = true ↔ f = .ha ∧ w < 2 ^ Format.ha.width := by
  cases f with
  | ha => simp [Turn.external, Format.width]
  | _ => simp [Turn.external]

/-- Every turn that a machine with a host can see goes on, and keeps the invariant. -/
theorem Inv.step {s : State} (h : Inv s) : Meets Inv (step s) := by
  cases ha : s.agenda with
  | nil =>
    rw [step_of_agenda_nil ha]
    exact h.exec_phaseInstr
  | cons turn rest =>
    have hall := h.agenda
    rw [ha, List.all_cons, Bool.and_eq_true] at hall
    obtain ⟨hturn, hrest⟩ := hall
    have htaken : Inv { s with agenda := rest } := h.setAgenda hrest
    cases turn with
    | seq =>
      rw [step_of_fetch_sequencerWord (fetch_of_seq ha)]
      exact htaken.exec_phaseInstr
    | word f w =>
      obtain ⟨rfl, hw⟩ := external_word_iff.1 hturn
      rw [step_of_fetch (fetch_of_word ha) (decode_ha_of_lt hw)]
      exact htaken.exec_access (format_decodeHA w)
    | poll =>
      obtain ⟨-, -, -, hbusy, hdone⟩ := stepPerformsPhaseOrPresentedInstruction s
      cases hb : s.busy with
      | true =>
        rw [hbusy rest ha hb]
        exact h.exec_phaseInstr
      | false =>
        rw [hdone rest ha hb]
        exact htaken.exec_access rfl
    | reset =>
      rw [step_of_reset ha]
      exact .next htaken.toReset

/-- Settles O50: a step has one answer, and the one that the invariant gives keeps it. -/
theorem everyStepKeepsInv : Obligations.EveryStepKeepsInv := by
  intro s t h ht
  obtain ⟨u, hu, hinv⟩ := h.step
  rw [ht] at hu
  cases hu
  exact hinv

/-- Settles O51. -/
theorem invStatesGoOn : Obligations.InvStatesGoOn := by
  intro s h
  obtain ⟨t, ht, -⟩ := h.step
  exact ⟨t, ht⟩

end Sys2Proof.Machine
end

section
/-! SUPPORT. The hash primitive on a message of one block (41_sha2_functions.md R170 to R175): one compression of the padded
message, and the digest read as the number that its hexadecimal digits print (R177). -/
namespace Sys2Proof.Machine

/-! ## The function of an algorithm -/

theorem hashBytes_sha256 {m : Bytes} (h : 8 * m.length < 2 ^ 64) : hashBytes 5 m = sha2 sha256 m :=
  if_pos ⟨rfl, h⟩

theorem hashBytes_sha512 {m : Bytes} (h : 8 * m.length < 2 ^ 128) : hashBytes 6 m = sha2 sha512 m := by
  have hnot : ¬((6 : Byte) = 5 ∧ 8 * m.length < 2 ^ 64) := fun h5 => absurd h5.1 (by decide)
  rw [hashBytes, if_neg hnot, if_pos ⟨rfl, h⟩]

/-! ## One block -/

/-- R171: the padding of a message that leaves room for 0x80 and the length field fills one block. -/
theorem shaPad_length_of_short {blockBytes lengthBytes : Nat} {m : Bytes} (h : m.length + lengthBytes < blockBytes) :
    (shaPad blockBytes lengthBytes m).length = blockBytes := by
  have hzeros : (2 * blockBytes - lengthBytes - 1 - m.length % blockBytes) % blockBytes =
      blockBytes - lengthBytes - 1 - m.length := by
    rw [Nat.mod_eq_of_lt (by omega : m.length < blockBytes), Nat.mod_eq_sub_mod (by omega),
      Nat.mod_eq_of_lt (by omega)]
    omega
  simp only [shaPad, hzeros, List.length_append, List.length_cons, List.length_replicate, bytesBE_length]
  omega

/-- R160, R161: a short message takes one compression, from the initial words. -/
theorem sha2_of_short {w : Nat} (p : Sha2 w) {m : Bytes} (h : m.length + p.lengthBytes < p.blockBytes) :
    sha2 p m = (compress p (EightWords.ofList p.iv) (shaPad p.blockBytes p.lengthBytes m)).toList.flatMap
      fun x => bytesBE (w / 8) x.toNat := by
  have hlen := shaPad_length_of_short h
  have hone : p.blockBytes / p.blockBytes = 1 := Nat.div_self (by omega)
  have htake : (shaPad p.blockBytes p.lengthBytes m).take p.blockBytes = shaPad p.blockBytes p.lengthBytes m :=
    List.take_of_length_le hlen.le
  simp only [sha2, hlen, hone, pieces, htake, List.foldl_cons, List.foldl_nil]

/-! ## The number that a digest prints -/

/-- The number whose digits to the base `2 ^ w` are the words, the first word leading. -/
def natOfWordsBE {w : Nat} (l : List (BitVec w)) : Nat :=
  l.foldl (fun acc x => acc * 2 ^ w + x.toNat) 0

/-- Reading on over `n` bytes of a number shifts what was read and adds the number's low bytes. -/
theorem foldl_bytesBE (n v acc : Nat) :
    (bytesBE n v).foldl (fun acc b => acc * 256 + b.toNat) acc = acc * 256 ^ n + v % 256 ^ n := by
  induction n generalizing acc with
  | zero => simp [bytesBE, Nat.mod_one]
  | succ n ih =>
    have hsplit : v % 256 ^ (n + 1) = v % 256 ^ n + 256 ^ n * (v / 256 ^ n % 256) := by
      rw [pow_succ, Nat.mod_mul]
    rw [bytesBE, List.foldl_cons, ih, hsplit, BitVec.toNat_ofNat]
    ring

/-- R175: words serialised one after the other read as one number, word by word. -/
theorem natOfBytesBE_flatMap_bytesBE {w : Nat} (hw : 8 ∣ w) (l : List (BitVec w)) :
    natOfBytesBE (l.flatMap fun x => bytesBE (w / 8) x.toNat) = natOfWordsBE l := by
  have hbase : 256 ^ (w / 8) = 2 ^ w := by
    rw [show 256 = 2 ^ 8 from rfl, ← pow_mul, Nat.mul_div_cancel' hw]
  simp only [natOfBytesBE, natOfWordsBE, List.foldl_flatMap, foldl_bytesBE, hbase,
    Nat.mod_eq_of_lt (BitVec.isLt _)]

theorem natOfBytesBE_sha2_of_short {w : Nat} (hw : 8 ∣ w) (p : Sha2 w) {m : Bytes}
    (h : m.length + p.lengthBytes < p.blockBytes) :
    natOfBytesBE (sha2 p m) =
      natOfWordsBE (compress p (EightWords.ofList p.iv) (shaPad p.blockBytes p.lengthBytes m)).toList := by
  rw [sha2_of_short p h, natOfBytesBE_flatMap_bytesBE hw]

/-! ## The check values -/

/-- Settles O15: `abc` is a message of one block for both functions, so each check value is the number of the eight words
of one compression, which the kernel evaluates. -/
theorem hashCheckValuesOfAbc : Obligations.HashCheckValuesOfAbc := by
  constructor
  · rw [hashBytes_sha256 (by decide), natOfBytesBE_sha2_of_short (by decide) sha256 (by decide)]
    decide +kernel
  · rw [hashBytes_sha512 (by decide), natOfBytesBE_sha2_of_short (by decide) sha512 (by decide)]
    decide +kernel

end Sys2Proof.Machine
end

section
/-! SUPPORT. The set-up family (42_digest_setup.md R198 to R219, R226, R227): what NOP, CHK, the fills and each phase answer. -/
namespace Sys2Proof.Machine

/-! ## The rules -/

theorem issue_of_refused {u : State → Answer} {finish : State → State} {s : State} {r : Refusal} (h : u s = .refused r) :
    issue u finish s = .refused r := by
  simp [issue, andThen, h]

/-- The bytes of a fill (R198, R199), byte by byte. -/
theorem rep_readBytes (m : Memory) {d : Nat} (hd : 0 < d) (n : Nat) :
    rep (m.readBytes 0 d) n = (List.range n).map fun k => m.read (k % d) := by
  refine List.map_congr_left fun k _ => ?_
  rw [Memory.readBytes_length, Memory.readBytes_getD _ _ _ _ (Nat.mod_lt k hd), Nat.zero_add]

theorem fillFromT_of_inRange {x : Buf} {s : State} (hx : s.wholeInRange x = true) :
    fillFromT x s = .next (s.setBuf x ((s.buf x).writeBytes 0
      ((List.range (s.feedLen x)).map fun k => s.bufT.read (k % digestSize s.alg)))) := by
  rw [← rep_readBytes _ (digestSize_pos s.alg)]
  exact fillFromT_next.2 ⟨hx, rfl⟩

theorem checkJob_of_job {passed : State → State} {s : State} (hjob : jobError s = none) :
    checkJob passed s = .next (passed (clearInternal s)) :=
  checkJob_next.2 (.inr ⟨hjob, rfl⟩)

/-! ## The counters -/

theorem ofNat_toNat_sub {v : Word32} {n : Nat} (hn : n ≤ v.toNat) :
    BitVec.ofNat 32 (v.toNat - n) = v - BitVec.ofNat 32 n := by
  have := v.isLt
  apply BitVec.eq_of_toNat_eq
  rw [BitVec.toNat_sub, BitVec.toNat_ofNat, BitVec.toNat_ofNat]
  omega

theorem ofNat_toNat_half (v : Word32) : BitVec.ofNat 32 (v.toNat / 2) = v >>> 1 := by
  have := v.isLt
  apply BitVec.eq_of_toNat_eq
  rw [BitVec.toNat_ofNat, BitVec.toNat_ushiftRight, Nat.shiftRight_eq_div_pow]
  omega

theorem ofNat_toNat_succ (v : Word32) : BitVec.ofNat 32 (v.toNat + 1) = v + 1 := by
  rw [BitVec.ofNat_add, BitVec.ofNat_toNat, BitVec.setWidth_eq]
  rfl

theorem toNat_saltCount (c : Byte) : ((16 : Word32) + c.setWidth 32).toNat = 16 + c.toNat := by
  bv_omega

theorem cz_iff {s : State} : s.cz = true ↔ s.cnt = 0 := beq_iff_eq

theorem cb_iff {s : State} : s.cb = true ↔ s.cnt.toNat % 2 = 1 := by
  rw [State.cb, ← BitVec.testBit_toNat, Nat.testBit_zero, decide_eq_true_iff]

theorem cge_iff {s : State} : s.cge = true ↔ s.dsz ≤ s.cnt.toNat := by
  rw [State.cge, Nat.ble_eq]

/-! ## The statements -/

/-- Settles O16. -/
theorem nopAndTerminalPhasesChangeNothing : Obligations.NopAndTerminalPhasesChangeNothing := by
  intro s
  simp only [List.forall_mem_cons]
  exact ⟨rfl, rfl, rfl, rfl, List.forall_mem_nil _⟩

/-- Settles O17: both fills are one operation on two buffers. -/
theorem fillRepeatsTheDigestInT : Obligations.FillRepeatsTheDigestInT :=
  fun _ => ⟨
    fun hplen => ⟨_, fillFromT_of_inRange (x := .p) (fits_iff.2 hplen), Memory.writtenAt_writeBytes _ _ _⟩,
    fun hslen => ⟨_, fillFromT_of_inRange (x := .s) (fits_iff.2 hslen), Memory.writtenAt_writeBytes _ _ _⟩⟩

/-- Settles O18. -/
theorem chkClearsTheInternalState : Obligations.ChkClearsTheInternalState := by
  intro s halg hslen hplen
  have hjob : jobError s = none := jobError_none.2 ⟨halg, hslen, hplen⟩
  exact ⟨checkJob_of_job hjob, checkJob_of_job hjob⟩

/-- Settles O37: each of the four phases issues *new*. -/
theorem openingPhases : Obligations.OpeningPhases := by
  intro s
  refine ⟨fun hc => ?_, fun ho => ?_⟩
  · have new := openContext_of_closed hc
    exact ⟨issue_of_next new, issue_of_next new, issue_of_next new, _, toNat_saltCount _, issue_of_next new⟩
  · have new := openContext_of_open ho
    simp only [List.forall_mem_cons]
    exact ⟨issue_of_refused new, issue_of_refused new, issue_of_refused new, issue_of_refused new, List.forall_mem_nil _⟩

/-- Settles O38. -/
theorem passwordAndSaltFeedPhases : Obligations.PasswordAndSaltFeedPhases := by
  intro s ho
  constructor
  · rintro hplen _ rfl
    have feed := feedWhole_of_open (x := .pw) ho (fits_iff.2 hplen)
    exact ⟨issue_of_next feed, issue_of_next feed, issue_of_next feed⟩
  · rintro hslen _ rfl
    have feed := feedWhole_of_open (x := .salt) ho (fits_iff.2 hslen)
    exact ⟨issue_of_next feed, issue_of_next feed⟩

/-- Settles O39: each phase issues the *finalise* of its buffer. -/
theorem finalisingPhases : Obligations.FinalisingPhases := by
  rintro s ho _ rfl
  have written (x : Buf) := Memory.writtenAt_writeBytes (s.buf x) 0 (hashBytes s.alg s.hctx.msg)
  rw [ofNat_toNat_succ]
  exact ⟨⟨_, issue_of_next (hashFinish_of_open .b ho), written .b⟩,
    ⟨_, issue_of_next (hashFinish_of_open .c ho), written .c⟩,
    ⟨_, issue_of_next (hashFinish_of_open .t ho), written .t⟩,
    ⟨_, issue_of_next (hashFinish_of_open .t ho), written .t⟩,
    ⟨_, issue_of_next (hashFinish_of_open .c ho), written .c⟩⟩

/-- Settles O40. -/
theorem fillPhases : Obligations.FillPhases := by
  intro s
  constructor
  · intro hplen
    refine ⟨_, ?_, Memory.writtenAt_writeBytes _ _ _⟩
    exact issue_of_next (fillFromT_of_inRange (x := .p) (fits_iff.2 hplen))
  · intro hslen
    refine ⟨_, ?_, Memory.writtenAt_writeBytes _ _ _⟩
    exact issue_of_next (fillFromT_of_inRange (x := .s) (fits_iff.2 hslen))

/-- Settles O41, branch by branch: `CNT` against `DSZ` in A3; `CNT` = 0 and then its low bit in A4. -/
theorem copyAndBitLoopPhases : Obligations.CopyAndBitLoopPhases := by
  rintro s _ rfl
  rw [ofNat_toNat_half]
  refine ⟨fun ho hcnt => ?_, fun ho hcnt => ?_, fun hcnt => ?_, fun ho hodd => ?_, fun ho hcnt heven hplen => ?_⟩
  · rw [ofNat_toNat_sub hcnt]
    exact (if_pos (cge_iff.2 hcnt)).trans (issue_of_next (feedWhole_of_open (x := .b) ho rfl))
  · exact (if_neg (cge_iff.not.2 (Nat.not_le.2 hcnt))).trans (issue_of_next (feedPartial_of_open ho hcnt))
  · exact if_pos (cz_iff.2 hcnt)
  · have hcnt : s.cnt ≠ 0 := fun h => by simp [h] at hodd
    exact (if_neg (cz_iff.not.2 hcnt)).trans
      ((if_pos (cb_iff.2 hodd)).trans (issue_of_next (feedWhole_of_open (x := .b) ho rfl)))
  · have hodd : ¬ s.cnt.toNat % 2 = 1 := by omega
    exact (if_neg (cz_iff.not.2 hcnt)).trans
      ((if_neg (cb_iff.not.2 hodd)).trans (issue_of_next (feedWhole_of_open (x := .pw) ho (fits_iff.2 hplen))))

/-- Settles O42: both loops end at `CNT` = 0 and else issue one feed. -/
theorem repetitionLoopPhases : Obligations.RepetitionLoopPhases := by
  intro s
  have ends (hcnt : s.cnt = 0) := cz_iff.2 hcnt
  have goes (hcnt : s.cnt ≠ 0) := cz_iff.not.2 hcnt
  have less (hcnt : s.cnt ≠ 0) : BitVec.ofNat 32 (s.cnt.toNat - 1) = s.cnt - 1 := ofNat_toNat_sub (by bv_omega)
  refine ⟨fun hcnt => ⟨if_pos (ends hcnt), if_pos (ends hcnt)⟩, fun ho hcnt hplen => ?_, fun ho hcnt hslen => ?_⟩
  · rw [less hcnt]
    exact (if_neg (goes hcnt)).trans (issue_of_next (feedWhole_of_open (x := .pw) ho (fits_iff.2 hplen)))
  · rw [less hcnt]
    exact (if_neg (goes hcnt)).trans (issue_of_next (feedWhole_of_open (x := .salt) ho (fits_iff.2 hslen)))

end Sys2Proof.Machine
end

section
/-! SUPPORT. The set-up phases compute the set-up functions (42_digest_setup.md R190 to R196, R228): from CHK to RT, stretch by
stretch, each with the message that it hashes. -/
namespace Sys2Proof.Machine

/-! ## Powers and bits -/

@[simp] theorem power_zero (x : Bytes) : power x 0 = [] := rfl

theorem power_succ (x : Bytes) (n : Nat) : power x (n + 1) = x ++ power x n := rfl

/-- With enough fuel the bits of R191 are the library's bits. -/
theorem lowBitsFrom_eq_bits {fuel n : Nat} (h : n ≤ fuel) : lowBitsFrom fuel n = n.bits := by
  induction fuel generalizing n with
  | zero => rw [Nat.le_zero.1 h, Nat.zero_bits]; rfl
  | succ fuel ih =>
    by_cases hn : n = 0
    · rw [hn, Nat.zero_bits]; rfl
    · have hbit : n = Nat.bit (n % 2 == 1) (n / 2) := by
        rcases Nat.mod_two_eq_zero_or_one n with h2 | h2 <;> simp [Nat.bit_val, h2] <;> omega
      conv_rhs => rw [hbit, Nat.bits_append_bit _ _ (fun h0 => by simp; omega)]
      rw [lowBitsFrom, if_neg hn, ih (by omega)]

theorem lowBits_eq_bits (n : Nat) : lowBits n = n.bits := lowBitsFrom_eq_bits le_rfl

/-! ## Bytes read back -/

theorem Memory.take_readBytes (m : Memory) {k n : Nat} (h : k ≤ n) : (m.readBytes 0 n).take k = m.readBytes 0 k := by
  simp [Memory.readBytes, ← List.map_take, List.take_range, h]

theorem Memory.readBytes_writeBytes_of_length (m : Memory) {v : Bytes} {n : Nat} (h : v.length = n) :
    (m.writeBytes 0 v).readBytes 0 n = v :=
  h ▸ Memory.readBytes_writeBytes m v

/-- A finalise leaves the digest in the first `DSZ` bytes of its buffer. -/
theorem readBytes_writeBytes_hashBytes (m : Memory) (alg : Byte) (msg : Bytes) :
    (m.writeBytes 0 (hashBytes alg msg)).readBytes 0 (digestSize alg) = hashBytes alg msg :=
  Memory.readBytes_writeBytes_of_length m (hashBytes_length alg msg)

theorem read_zero_writeBytes_hashBytes (m : Memory) (alg : Byte) (msg : Bytes) :
    (m.writeBytes 0 (hashBytes alg msg)).read 0 = (hashBytes alg msg).getD 0 0 := by
  have hrange : 0 ≤ 0 ∧ 0 < 0 + (hashBytes alg msg).length := by simp [digestSize_pos]
  rw [Memory.read_writeBytes, if_pos hrange]

theorem fillFromT_of_digest {x : Buf} {s : State} {d : Bytes} (hx : s.wholeInRange x = true)
    (hd : s.bufT.readBytes 0 s.dsz = d) :
    fillFromT x s = .next (s.setBuf x ((s.buf x).writeBytes 0 (rep d (s.feedLen x)))) :=
  hd ▸ fillFromT_next.2 ⟨hx, rfl⟩

/-! ## The job in the registers -/

@[simp] theorem job_pw_length (s : State) : s.job.pw.length = s.plen.toNat := Memory.readBytes_length _ _ _

@[simp] theorem job_salt_length (s : State) : s.job.salt.length = s.slen.toNat := Memory.readBytes_length _ _ _

/-- The message of R191, its bits the library's. -/
theorem messageA_eq (s : State) :
    s.job.messageA = s.job.pw ++ s.job.salt ++ power s.job.digestB (s.plen.toNat / digestSize s.alg) ++
      s.job.digestB.take (s.plen.toNat % digestSize s.alg) ++
      s.plen.toNat.bits.flatMap fun bit => if bit then s.job.digestB else s.job.pw := by
  rw [Job.messageA, job_pw_length, lowBits_eq_bits]
  rfl

/-! ## A stretch with its message -/

/-- `s` in a feeding phase `p`, with the bytes `m` in the open context and the loop counter `c`. -/
def State.feeding (s : State) (p : Phase) (m : Bytes) (c : Word32) : State :=
  (setCnt c s).midRound p m

theorem run_one {s t : State} (h : step s = .next t) : Sys2Proof.core.run 1 s = .next t :=
  (run_succ_of_next 0 h).trans (run_zero t)

theorem run_trans {s t u : State} {n k : Nat} (h : Sys2Proof.core.run n s = .next t)
    (h' : Sys2Proof.core.run k t = .next u) : Sys2Proof.core.run (n + k) s = .next u :=
  (run_add n k h).trans h'

theorem feedWhole_feeding {s : State} (hjob : jobError s = none) (x : Buf) (p : Phase) (m : Bytes) (c : Word32) :
    feedWhole x (s.feeding p m c) = .next (s.feeding p (m ++ s.feedBytes x) c) := by
  have hbytes : (setCnt c s).feedBytes x = s.feedBytes x := by cases x <;> rfl
  rw [← hbytes]
  exact feedWhole_midRound (s := setCnt c s) hjob x p m

/-- A phase that feeds one buffer, whatever it does with `CNT` and `PH`. -/
theorem issue_feed_feeding {s : State} (hjob : jobError s = none) (x : Buf) (finish : State → State) (p : Phase)
    (m : Bytes) (c : Word32) :
    issue (feedWhole x) finish (s.feeding p m c) = .next (finish (s.feeding p (m ++ s.feedBytes x) c)) :=
  issue_of_next (feedWhole_feeding hjob x p m c)

/-- Phase `p` feeds the buffer `x` and counts `CNT` down while it is not 0, then goes on to `q` (R213, R217). -/
def Repeats (p q : Phase) (x : Buf) : Prop :=
  ∀ t, exec (phaseInstr p) t = if t.cz then issue (fun v => .next v) (goto q) t
    else issue (feedWhole x) (fun v => goto p (setCnt (t.cnt - 1) v)) t

theorem dp1_repeats : Repeats .dp1 .dp2 .pw := fun _ => rfl

theorem ds1_repeats : Repeats .ds1 .ds2 .salt := fun _ => rfl

section
variable {s : State} (ha : s.agenda = [])
include ha

theorem step_of_ph {p : Phase} (hph : s.ph = p) : step s = exec (phaseInstr p) s :=
  hph ▸ step_of_agenda_nil ha

theorem step_feeding (p : Phase) (m : Bytes) (c : Word32) :
    step (s.feeding p m c) = exec (phaseInstr p) (s.feeding p m c) :=
  step_of_agenda_nil ha

variable (hjob : jobError s = none)
include hjob

/-! ## B (R190) -/

theorem run_digestB (hph : s.ph = .b0) (hc : s.hctx.isOpen = false) :
    Sys2Proof.core.run 5 s =
      .next { s with bufB := s.bufB.writeBytes 0 s.job.digestB, hctx := ⟨false, []⟩, ph := .a0 } := by
  have b0 : step s = .next (s.feeding .b1 [] s.cnt) :=
    (step_of_ph ha hph).trans (issue_of_next (openContext_of_closed hc))
  have b1 (m : Bytes) : step (s.feeding .b1 m s.cnt) = .next (s.feeding .b2 (m ++ s.job.pw) s.cnt) :=
    (step_feeding ha ..).trans (issue_feed_feeding hjob .pw ..)
  have b2 (m : Bytes) : step (s.feeding .b2 m s.cnt) = .next (s.feeding .b3 (m ++ s.job.salt) s.cnt) :=
    (step_feeding ha ..).trans (issue_feed_feeding hjob .salt ..)
  have b3 (m : Bytes) : step (s.feeding .b3 m s.cnt) = .next (s.feeding .b4 (m ++ s.job.pw) s.cnt) :=
    (step_feeding ha ..).trans (issue_feed_feeding hjob .pw ..)
  rw [run_succ_of_next 4 b0, run_succ_of_next 3 (b1 _), run_succ_of_next 2 (b2 _), run_succ_of_next 1 (b3 _),
    List.nil_append]
  exact run_one (step_feeding ha ..)

/-! ## digestA (R191, R192) -/

/-- The copies of **B**: one step for each whole copy and one for the rest (R209). -/
theorem run_copies (n r : Nat) (hr : r < digestSize s.alg) (m : Bytes) (c : Word32)
    (hcnt : c.toNat = n * digestSize s.alg + r) :
    Sys2Proof.core.run (n + 1) (s.feeding .a3 m c) =
      .next (s.feeding .a4 (m ++ power (s.feedBytes .b) n ++ (s.feedBytes .b).take r) s.plen) := by
  induction n generalizing m c with
  | zero =>
    have hlt : c.toNat < digestSize s.alg := by omega
    have hcge : ¬ (s.feeding .a3 m c).cge = true := cge_iff.not.2 (Nat.not_le.2 hlt)
    have hrest : (s.feedBytes .b).take r = s.bufB.readBytes 0 c.toNat := by
      rw [hcnt, zero_mul, zero_add]
      exact Memory.take_readBytes _ hr.le
    rw [hrest, power_zero, List.append_nil]
    have rest : step (s.feeding .a3 m c) = .next (s.feeding .a4 (m ++ s.bufB.readBytes 0 c.toNat) s.plen) :=
      (step_feeding ha ..).trans
        ((if_neg hcge).trans (issue_of_next (feedPartial_next.2 ⟨rfl, cge_eq_false_iff.2 hlt, rfl⟩)))
    exact run_one rest
  | succ n ih =>
    have hle : digestSize s.alg ≤ c.toNat := by rw [hcnt, Nat.succ_mul]; omega
    have hcge : (s.feeding .a3 m c).cge = true := cge_iff.2 hle
    have hnext : (c - BitVec.ofNat 32 (digestSize s.alg)).toNat = n * digestSize s.alg + r := by
      rw [← ofNat_toNat_sub hle, BitVec.toNat_ofNat, Nat.mod_eq_of_lt (by omega), hcnt, Nat.succ_mul]
      omega
    have copy : step (s.feeding .a3 m c) =
        .next (s.feeding .a3 (m ++ s.feedBytes .b) (c - BitVec.ofNat 32 (digestSize s.alg))) :=
      (step_feeding ha ..).trans ((if_pos hcge).trans (issue_feed_feeding hjob .b ..))
    rw [run_succ_of_next (n + 1) copy, ih _ _ hnext, power_succ, ← List.append_assoc]

/-- The bits of `CNT`: one step for each and one that finds `CNT` = 0 (R210). -/
theorem run_bits (n : Nat) (m : Bytes) (c : Word32) (hcnt : c.toNat = n) :
    Sys2Proof.core.run (n.size + 1) (s.feeding .a4 m c) =
      .next (s.feeding .a5 (m ++ n.bits.flatMap fun bit => if bit then s.feedBytes .b else s.feedBytes .pw) 0) := by
  induction n using Nat.binaryRec' generalizing m c with
  | zero =>
    obtain rfl : c = 0 := BitVec.eq_of_toNat_eq hcnt
    simp only [Nat.size_zero, Nat.zero_bits, List.flatMap_nil, List.append_nil]
    exact run_one (step_feeding ha ..)
  | bit b n hb ih =>
    have hvalue : c.toNat = 2 * n + b.toNat := hcnt.trans (Nat.bit_val b n)
    have hpos : Nat.bit b n ≠ 0 := by simpa using hb
    have hcz : ¬ (s.feeding .a4 m c).cz = true := cz_iff.not.2 fun h : c = 0 => hpos (by rw [← hcnt, h]; rfl)
    have hcb : (s.feeding .a4 m c).cb = b := by
      rw [Bool.eq_iff_iff, cb_iff]
      show c.toNat % 2 = 1 ↔ b = true
      cases b <;> simp [hvalue]
    have hnext : (c >>> 1).toNat = n := by
      have hb2 := b.toNat_lt
      have hc := c.isLt
      rw [← ofNat_toNat_half, BitVec.toNat_ofNat]
      omega
    have feed : step (s.feeding .a4 m c) =
        .next (s.feeding .a4 (m ++ if b then s.feedBytes .b else s.feedBytes .pw) (c >>> 1)) := by
      refine (step_feeding ha ..).trans ((if_neg hcz).trans ?_)
      rw [hcb]
      cases b with
      | true => exact issue_feed_feeding hjob .b ..
      | false => exact issue_feed_feeding hjob .pw ..
    rw [Nat.size_bit hpos, run_succ_of_next _ feed, ih _ _ hnext, Nat.bits_append_bit _ _ hb, List.flatMap_cons,
      List.append_assoc]

theorem run_digestA (hph : s.ph = .a0) (hc : s.hctx.isOpen = false) (hb : s.feedBytes .b = s.job.digestB) :
    Sys2Proof.core.run (3 + (s.plen.toNat / digestSize s.alg + 1) + (s.plen.toNat.size + 1) + 1) s =
      .next { s with bufC := s.bufC.writeBytes 0 s.job.digestA, hctx := ⟨false, []⟩, cnt := 0, ph := .dp0 } := by
  have a0 : step s = .next (s.feeding .a1 [] s.cnt) :=
    (step_of_ph ha hph).trans (issue_of_next (openContext_of_closed hc))
  have a1 (m : Bytes) : step (s.feeding .a1 m s.cnt) = .next (s.feeding .a2 (m ++ s.job.pw) s.cnt) :=
    (step_feeding ha ..).trans (issue_feed_feeding hjob .pw ..)
  have a2 (m : Bytes) : step (s.feeding .a2 m s.cnt) = .next (s.feeding .a3 (m ++ s.job.salt) s.plen) :=
    (step_feeding ha ..).trans (issue_feed_feeding hjob .salt ..)
  have salted : Sys2Proof.core.run 3 s = .next (s.feeding .a3 (s.job.pw ++ s.job.salt) s.plen) := by
    rw [run_succ_of_next 2 a0, run_succ_of_next 1 (a1 _), run_succ_of_next 0 (a2 _), List.nil_append, run_zero]
  have copied := run_copies ha hjob (s.plen.toNat / digestSize s.alg) (s.plen.toNat % digestSize s.alg)
    (Nat.mod_lt _ (digestSize_pos s.alg)) (s.job.pw ++ s.job.salt) s.plen (Nat.div_add_mod' ..).symm
  have fed := run_trans (run_trans salted copied) (run_bits ha hjob s.plen.toNat _ s.plen rfl)
  rw [Job.digestA, messageA_eq, ← hb]
  exact run_trans fed (run_one (step_feeding ha ..))

/-! ## The repetitions (R193, R195) -/

/-- Such a phase takes one step for each feed and one that finds `CNT` = 0. -/
theorem run_repetitions {p q : Phase} {x : Buf} (hloop : Repeats p q x) (n : Nat) (m : Bytes) (c : Word32)
    (hcnt : c.toNat = n) :
    Sys2Proof.core.run (n + 1) (s.feeding p m c) = .next (s.feeding q (m ++ power (s.feedBytes x) n) 0) := by
  induction n generalizing m c with
  | zero =>
    obtain rfl : c = 0 := BitVec.eq_of_toNat_eq hcnt
    rw [power_zero, List.append_nil]
    exact run_one ((step_feeding ha ..).trans (hloop _))
  | succ n ih =>
    have hcz : ¬ (s.feeding p m c).cz = true := cz_iff.not.2 fun h : c = 0 => by simp [h] at hcnt
    have hnext : (c - 1).toNat = n := by bv_omega
    have feed : step (s.feeding p m c) = .next (s.feeding p (m ++ s.feedBytes x) (c - 1)) :=
      (step_feeding ha ..).trans ((hloop _).trans ((if_neg hcz).trans (issue_feed_feeding hjob x ..)))
    rw [run_succ_of_next _ feed, ih _ _ hnext, power_succ, List.append_assoc]

/-- Such a loop with the phase that finalises its message into `T` (R214, R218). -/
theorem run_repeatedDigest {p q r : Phase} {x : Buf} (hloop : Repeats p q x)
    (hfinal : ∀ t, exec (phaseInstr q) t = issue (hashFinish .t) (goto r) t) (c : Word32) :
    Sys2Proof.core.run (c.toNat + 1 + 1) (s.feeding p [] c) =
      .next { s with
        bufT := s.bufT.writeBytes 0 (hashBytes s.alg (power (s.feedBytes x) c.toNat))
        hctx := ⟨false, []⟩, cnt := 0, ph := r } :=
  run_trans (run_repetitions ha hjob hloop _ [] c rfl) (run_one ((step_feeding ha ..).trans (hfinal _)))

theorem step_p0 (hph : s.ph = .p0) (hT : s.bufT.readBytes 0 s.dsz = s.job.digestDP) :
    step s = .next { s with bufP := s.bufP.writeBytes 0 s.job.seqP, ph := .ds0 } := by
  rw [Job.seqP, job_pw_length]
  exact (step_of_ph ha hph).trans (issue_of_next (fillFromT_of_digest (wholeInRange_of_job hjob .p) hT))

theorem step_s0 (hph : s.ph = .s0) (hT : s.bufT.readBytes 0 s.dsz = s.job.digestDS) :
    step s = .next { s with bufS := s.bufS.writeBytes 0 s.job.seqS, i := 0, ph := .rt } := by
  rw [Job.seqS, job_salt_length]
  exact (step_of_ph ha hph).trans (issue_of_next (fillFromT_of_digest (wholeInRange_of_job hjob .s) hT))

/-- **P** (R193, R194). -/
theorem run_seqP (hph : s.ph = .dp0) (hc : s.hctx.isOpen = false) :
    Sys2Proof.core.run (s.plen.toNat + 4) s =
      .next { s with
        bufT := s.bufT.writeBytes 0 s.job.digestDP, bufP := s.bufP.writeBytes 0 s.job.seqP
        hctx := ⟨false, []⟩, cnt := 0, ph := .ds0 } := by
  have dp0 : step s = .next (s.feeding .dp1 [] s.plen) :=
    (step_of_ph ha hph).trans (issue_of_next (openContext_of_closed hc))
  have digest := run_repeatedDigest ha hjob dp1_repeats (fun _ => rfl) s.plen
  have hDP : s.job.digestDP = hashBytes s.alg (power (s.feedBytes .pw) s.plen.toNat) := by
    rw [Job.digestDP, job_pw_length]
    rfl
  rw [← hDP] at digest
  rw [run_succ_of_next _ dp0]
  exact run_trans (k := 1) digest (run_one (step_p0 ha hjob rfl (readBytes_writeBytes_hashBytes ..)))

/-- **S** (R195, R196). -/
theorem run_seqS (hph : s.ph = .ds0) (hc : s.hctx.isOpen = false) (hC : s.bufC.read 0 = s.job.digestA.getD 0 0) :
    Sys2Proof.core.run (s.job.saltCount + 4) s =
      .next { s with
        bufT := s.bufT.writeBytes 0 s.job.digestDS, bufS := s.bufS.writeBytes 0 s.job.seqS
        hctx := ⟨false, []⟩, cnt := 0, i := 0, ph := .rt } := by
  have hcount : ((16 : Word32) + (s.bufC.read 0).setWidth 32).toNat = s.job.saltCount := by
    rw [toNat_saltCount, hC, Job.saltCount]
  have ds0 : step s = .next (s.feeding .ds1 [] (16 + (s.bufC.read 0).setWidth 32)) :=
    (step_of_ph ha hph).trans (issue_of_next (openContext_of_closed hc))
  have digest := run_repeatedDigest ha hjob ds1_repeats (fun _ => rfl) (16 + (s.bufC.read 0).setWidth 32)
  rw [hcount] at digest
  rw [run_succ_of_next _ ds0]
  exact run_trans (k := 1) digest (run_one (step_s0 ha hjob rfl (readBytes_writeBytes_hashBytes ..)))

end

/-! ## From CHK to RT (R228) -/

/-- `s` when its job reaches RT with `I` = 0: each set-up value in the first bytes of its buffer. -/
def State.setUp (s : State) : State :=
  { clearInternal s with
    bufB := Memory.writeBytes [] 0 s.job.digestB
    bufC := Memory.writeBytes [] 0 s.job.digestA
    bufT := Memory.writeBytes (Memory.writeBytes [] 0 s.job.digestDP) 0 s.job.digestDS
    bufP := Memory.writeBytes [] 0 s.job.seqP
    bufS := Memory.writeBytes [] 0 s.job.seqS
    ph := .rt }

/-- The number of set-up steps (R228). -/
def Job.setupSteps (j : Job) : Nat :=
  20 + j.pw.length / digestSize j.alg + j.pw.length.size + j.pw.length + j.saltCount

theorem run_setup {s : State} (hph : s.ph = .chk) (ha : s.agenda = []) (hjob : jobError s = none) :
    Sys2Proof.core.run s.job.setupSteps s = .next s.setUp := by
  have chk : step s = .next (goto .b0 (clearInternal s)) := (step_of_ph ha hph).trans (checkJob_of_job hjob)
  have stretchB := run_digestB (s := goto .b0 (clearInternal s)) ha hjob rfl rfl
  have stretchA := run_digestA (s := { goto .a0 (clearInternal s) with bufB := Memory.writeBytes [] 0 s.job.digestB })
    ha hjob rfl rfl (readBytes_writeBytes_hashBytes ..)
  have stretchP := run_seqP (s := { goto .dp0 (clearInternal s) with
    bufB := Memory.writeBytes [] 0 s.job.digestB, bufC := Memory.writeBytes [] 0 s.job.digestA }) ha hjob rfl rfl
  have stretchS := run_seqS (s := { goto .ds0 (clearInternal s) with
    bufB := Memory.writeBytes [] 0 s.job.digestB, bufC := Memory.writeBytes [] 0 s.job.digestA
    bufT := Memory.writeBytes [] 0 s.job.digestDP, bufP := Memory.writeBytes [] 0 s.job.seqP }) ha hjob rfl rfl
    (read_zero_writeBytes_hashBytes ..)
  have hsteps : s.job.setupSteps = 5 + (3 + (s.plen.toNat / digestSize s.alg + 1) + (s.plen.toNat.size + 1) + 1) +
      (s.plen.toNat + 4) + (s.job.saltCount + 4) + 1 := by
    rw [Job.setupSteps, job_pw_length]
    show 20 + s.plen.toNat / digestSize s.alg + _ + _ + _ = _
    omega
  rw [hsteps, run_succ_of_next _ chk]
  exact run_trans (run_trans (run_trans stretchB stretchA) stretchP) stretchS

/-- Settles O52: the run ends in `State.setUp`, whose buffers read back as what was written. -/
theorem setupComputesItsFunctions : Obligations.SetupComputesItsFunctions := by
  intro s hph ha hjob
  have hsteps : s.job.setupSteps = 20 + s.plen.toNat / digestSize s.alg + s.plen.toNat.size + s.plen.toNat +
      (16 + (s.job.digestA.getD 0 0).toNat) := by
    rw [Job.setupSteps, job_pw_length]
    rfl
  have hP : s.job.seqP.length = s.plen.toNat := (rep_length ..).trans (job_pw_length s)
  have hS : s.job.seqS.length = s.slen.toNat := (rep_length ..).trans (job_salt_length s)
  exact ⟨s.setUp, hsteps ▸ run_setup hph ha hjob, rfl, rfl, rfl, rfl, readBytes_writeBytes_hashBytes ..,
    readBytes_writeBytes_hashBytes .., readBytes_writeBytes_hashBytes .., Memory.readBytes_writeBytes_of_length _ hP,
    Memory.readBytes_writeBytes_of_length _ hS⟩

end Sys2Proof.Machine
end

section
/-! SUPPORT. The round loop (43_round_loop.md R240 to R262): what its phases and the round types answer, and the chain that
the loop leaves in `C`. -/
namespace Sys2Proof.Machine

/-! ## The predicates of `I` -/

theorem last_iff {s : State} : s.last = true ↔ s.i = s.rounds := beq_iff_eq

theorem odd_iff {s : State} : s.odd = true ↔ s.i.toNat % 2 = 1 := by
  rw [odd_eq, beq_iff_eq]

theorem sen_iff {s : State} : s.sen = true ↔ s.i.toNat % 3 ≠ 0 := bne_iff_ne

theorem pen_iff {s : State} : s.pen = true ↔ s.i.toNat % 7 ≠ 0 := bne_iff_ne

/-! ## The phases -/

/-- Lengths within the password's and the salt's buffers are within every buffer that is fed by them, whatever `ALG` is. -/
theorem wholeInRange_of_lengths {s : State} (hplen : s.plen.toNat ≤ s.pwMax) (hslen : s.slen.toNat ≤ 16) (x : Buf) :
    s.wholeInRange x = true := by
  cases x with
  | pw | p => exact fits_iff.2 hplen
  | salt | s => exact fits_iff.2 hslen
  | b | c | t | enc => rfl

/-- Settles O43: each phase tests one predicate of `I` and issues *new*, a feed or nothing. -/
theorem roundPhases : Obligations.RoundPhases := by
  rintro s hplen hslen _ _ _ rfl rfl rfl
  have hrange := wholeInRange_of_lengths hplen hslen
  refine ⟨fun hi => if_pos (last_iff.2 hi), fun hi hc => ?rtNew, fun hi ho => ?rtRefused, fun h3 => ?r2Nop,
    fun h7 => ?r3Nop, fun ho => ?feeds⟩
  case rtNew => exact (if_neg (last_iff.not.2 hi)).trans (issue_of_next (openContext_of_closed hc))
  case rtRefused => exact (if_neg (last_iff.not.2 hi)).trans (issue_of_refused (openContext_of_open ho))
  case r2Nop => exact if_neg (sen_iff.not.2 (not_not.2 h3))
  case r3Nop => exact if_neg (pen_iff.not.2 (not_not.2 h7))
  case feeds =>
    have feedC := feedWhole_of_open (x := .c) ho (hrange .c)
    have feedP := feedWhole_of_open (x := .p) ho (hrange .p)
    have feedS := feedWhole_of_open (x := .s) ho (hrange .s)
    refine ⟨fun hodd => ?_, fun heven => ?_, fun h3 => ?_, fun h7 => ?_⟩
    · have hcond := odd_iff.2 hodd
      exact ⟨(if_pos hcond).trans (issue_of_next feedP), (if_pos hcond).trans (issue_of_next feedC)⟩
    · have hcond : ¬ s.odd = true := odd_iff.not.2 (by omega)
      exact ⟨(if_neg hcond).trans (issue_of_next feedC), (if_neg hcond).trans (issue_of_next feedP)⟩
    · exact (if_pos (sen_iff.2 h3)).trans (issue_of_next feedS)
    · exact (if_pos (pen_iff.2 h7)).trans (issue_of_next feedP)

/-! ## The round types -/

theorem feedWhole_midRound_of_inRange {s : State} {x : Buf} (hx : s.wholeInRange x = true) (p : Phase) (m : Bytes) :
    feedWhole x (s.midRound p m) = .next (s.midRound p (m ++ s.feedBytes x)) := by
  have hx' : (s.midRound p m).wholeInRange x = true := by
    rw [← hx]
    cases x <;> rfl
  exact feedWhole_next.2 ⟨rfl, hx', by cases x <;> rfl⟩

theorem feedAll_midRound_of_inRange {s : State} (hrange : ∀ x, s.wholeInRange x = true) (xs : List Buf) (p : Phase)
    (m : Bytes) : feedAll xs (s.midRound p m) = .next (s.midRound p (m ++ xs.flatMap s.feedBytes)) := by
  induction xs generalizing m with
  | nil => simp [feedAll]
  | cons x xs ih => simp [feedAll, feedWhole_midRound_of_inRange (hrange x), ih]

/-- A round needs only the ranges of R15, not an accepted job: an unsupported `ALG` gets a free digest (log entry 2). -/
theorem roundOf_of_inRange {s : State} (hrange : ∀ x, s.wholeInRange x = true) (hc : s.hctx.isOpen = false)
    (xs : List Buf) : roundOf xs s = .next (s.afterRound (xs.flatMap s.feedBytes)) := by
  have hnew : openContext s = .next (s.midRound s.ph []) := openContext_of_closed hc
  rw [roundOf, hnew, andThen_next_left, feedAll_midRound_of_inRange hrange]
  rfl

/-- The round types with the buffers that they feed (R241 to R248). -/
def roundTypeFeeds : List (Instr × List Buf) :=
  [(.rndCp, [.c, .p]), (.rndCpp, [.c, .p, .p]), (.rndCsp, [.c, .s, .p]), (.rndCspp, [.c, .s, .p, .p]),
    (.rndPc, [.p, .c]), (.rndPpc, [.p, .p, .c]), (.rndPsc, [.p, .s, .c]), (.rndPspc, [.p, .s, .p, .c])]

theorem exec_roundTypeFeeds (s : State) : ∀ r ∈ roundTypeFeeds, exec r.1 s = roundOf r.2 s := by
  simp only [roundTypeFeeds, List.forall_mem_cons]
  exact ⟨rfl, rfl, rfl, rfl, rfl, rfl, rfl, rfl, List.forall_mem_nil _⟩

/-- Settles O46: the eight messages are the bytes of the round types' feeds. -/
theorem roundTypesHashTheirMessages : Obligations.RoundTypesHashTheirMessages := by
  intro s hplen hslen c p q hc hp hq
  have feedC : s.feedBytes .c = c := (Memory.readBytes_zero ..).trans hc.symm
  have feedP : s.feedBytes .p = p := (Memory.readBytes_zero ..).trans hp.symm
  have feedS : s.feedBytes .s = q := (Memory.readBytes_zero ..).trans hq.symm
  have hmessages : [(Instr.rndCp, c ++ p), (.rndCpp, c ++ p ++ p), (.rndCsp, c ++ q ++ p), (.rndCspp, c ++ q ++ p ++ p),
      (.rndPc, p ++ c), (.rndPpc, p ++ p ++ c), (.rndPsc, p ++ q ++ c), (.rndPspc, p ++ q ++ p ++ c)] =
      roundTypeFeeds.map fun r => (r.1, r.2.flatMap s.feedBytes) := by
    simp [roundTypeFeeds, feedC, feedP, feedS]
  rw [hmessages, List.forall_mem_map]
  intro r hr
  rw [exec_roundTypeFeeds s r hr, ofNat_toNat_succ]
  exact ⟨fun hclosed => ⟨_, roundOf_of_inRange (wholeInRange_of_lengths hplen hslen) hclosed r.2,
    Memory.writtenAt_writeBytes _ _ _⟩, fun ho => roundOf_of_open ho r.2⟩

/-! ## The chain -/

/-- The bytes fed in a round are the message of R240. -/
theorem roundFeeds_flatMap_feedBytes (s : State) :
    s.roundFeeds.flatMap s.feedBytes =
      roundMessage (s.feedBytes .p) (s.feedBytes .s) s.i.toNat (s.feedBytes .c) := by
  simp only [roundMessage, ← odd_iff, ← sen_iff, ← pen_iff, State.roundFeeds]
  cases s.odd <;> cases s.sen <;> cases s.pen <;> simp

/-- The chain value after `n` rounds from the buffers of `s` (R250). -/
def State.chain (s : State) (n : Nat) : Bytes :=
  chainFrom s.alg (s.feedBytes .p) (s.feedBytes .s) (s.feedBytes .c) n

/-- `m` is `C` after `n` rounds from `s`: the chain value in front, the bytes of `s` behind it. -/
structure State.HoldsChain (s : State) (n : Nat) (m : Memory) : Prop where
  digest : m.readBytes 0 (digestSize s.alg) = s.chain n
  rest : ∀ k, digestSize s.alg ≤ k → m.read k = s.bufC.read k

theorem State.holdsChain_zero (s : State) : s.HoldsChain 0 s.bufC := ⟨rfl, fun _ _ => rfl⟩

/-- A round writes the next chain value over the last one. -/
theorem State.HoldsChain.succ {s : State} {n : Nat} {m : Memory} (h : s.HoldsChain n m) :
    s.HoldsChain (n + 1) (m.writeBytes 0 (s.chain (n + 1))) where
  digest := readBytes_writeBytes_hashBytes ..
  rest k hk := by
    have hlength : (s.chain (n + 1)).length = digestSize s.alg := hashBytes_length ..
    rw [Memory.read_writeBytes, hlength, if_neg (by omega)]
    exact h.rest k hk

/-- `s` in phase RT with `n` rounds done and `C` holding `m`. -/
def State.roundTest (s : State) (n : Nat) (m : Memory) : State :=
  { s with bufC := m, hctx := ⟨false, []⟩, i := BitVec.ofNat 32 n, ph := .rt }

theorem afterRound_roundTest (s : State) (n : Nat) (m : Memory) :
    (s.roundTest n m).afterRound (roundMessage (s.feedBytes .p) (s.feedBytes .s) n (s.chain n)) =
      s.roundTest (n + 1) (m.writeBytes 0 (s.chain (n + 1))) := by
  simp only [State.roundTest, State.afterRound, BitVec.ofNat_add]
  rfl

section
variable {s : State} (ha : s.agenda = [])
include ha

/-- With all rounds done the round test goes on to the encoder (R252). -/
theorem step_roundTest_last (m : Memory) :
    step (s.roundTest s.rounds.toNat m) =
      .next { s with bufC := m, hctx := ⟨false, []⟩, i := s.rounds, ph := .e0 } := by
  have hcount : BitVec.ofNat 32 s.rounds.toNat = s.rounds := by
    rw [BitVec.ofNat_toNat, BitVec.setWidth_eq]
  have hlast : (s.roundTest s.rounds.toNat m).last = true := last_iff.2 hcount
  refine (step_of_ph (s := s.roundTest s.rounds.toNat m) ha rfl).trans ((if_pos hlast).trans ?_)
  rw [State.roundTest, hcount]
  rfl

variable (hjob : jobError s = none)
include hjob

/-- One round of the loop (R257, R260): six steps write the next chain value. -/
theorem run_round {n : Nat} (hn : n < s.rounds.toNat) {m : Memory} (hm : s.HoldsChain n m) :
    Sys2Proof.core.run 6 (s.roundTest n m) = .next (s.roundTest (n + 1) (m.writeBytes 0 (s.chain (n + 1)))) := by
  have hcount : (BitVec.ofNat 32 n).toNat = n := by
    have := s.rounds.isLt
    rw [BitVec.toNat_ofNat]
    omega
  have hi : BitVec.ofNat 32 n ≠ s.rounds := fun h => hn.ne (by rw [← h, hcount])
  have hsix := run_six_of_closed (s := s.roundTest n m) ha hjob rfl hi rfl
  have hC : (s.roundTest n m).feedBytes .c = s.chain n := hm.digest
  have hmessage : (s.roundTest n m).roundFeeds.flatMap (s.roundTest n m).feedBytes =
      roundMessage (s.feedBytes .p) (s.feedBytes .s) n (s.chain n) := by
    rw [roundFeeds_flatMap_feedBytes, hC]
    show roundMessage _ _ (BitVec.ofNat 32 n).toNat _ = _
    rw [hcount]
    rfl
  rw [hsix, hmessage, afterRound_roundTest]

theorem run_rounds {n : Nat} (hn : n ≤ s.rounds.toNat) :
    ∃ m, Sys2Proof.core.run (6 * n) (s.roundTest 0 s.bufC) = .next (s.roundTest n m) ∧ s.HoldsChain n m := by
  induction n with
  | zero => exact ⟨_, rfl, s.holdsChain_zero⟩
  | succ n ih =>
    obtain ⟨m, hrun, hm⟩ := ih (Nat.le_of_succ_le hn)
    exact ⟨_, run_trans hrun (run_round ha hjob hn hm), hm.succ⟩

end

/-- Settles O53: `ROUNDS` rounds of six steps, and the round test that ends them. -/
theorem roundLoopComputesTheChain : Obligations.RoundLoopComputesTheChain := by
  intro s hph ha hi hctx hjob
  have hstart : s.roundTest 0 s.bufC = s := by
    have hzero : s.i = BitVec.ofNat 32 0 := hi
    rw [State.roundTest, ← hctx, ← hph, ← hzero]
  obtain ⟨m, hrun, hm⟩ := run_rounds ha hjob (le_refl s.rounds.toNat)
  have hfinish := run_trans hrun (run_one (step_roundTest_last ha m))
  rw [hstart, ← hctx] at hfinish
  exact ⟨m, hfinish, hm.digest, hm.rest⟩

end Sys2Proof.Machine
end

section
/-! SUPPORT. The text of a digest (44_mcf_encoder.md R280 to R290): the alphabet, the permutation tables, the characters of a
group as the digits of its number, and the text as full groups with a shorter last one. -/
namespace Sys2Proof.Machine

/-! ## The alphabet (R281) -/

/-- Settles O25, by evaluating the text. -/
theorem alphabetIsDotSlashDigitsLetters : Obligations.AlphabetIsDotSlashDigitsLetters :=
  ⟨by decide, rfl, by decide⟩

theorem alpha_length : alpha.length = 64 := alphabetIsDotSlashDigitsLetters.2.1

theorem alpha_nodup : alpha.Nodup := alphabetIsDotSlashDigitsLetters.2.2

/-- A character stands for one digit. -/
theorem eq_of_alpha_getD_eq {i j : Nat} (hi : i < 64) (hj : j < 64) (h : alpha.getD i 0 = alpha.getD j 0) : i = j := by
  rw [← alpha_length] at hi hj
  rwa [List.getD_eq_getElem _ _ hi, List.getD_eq_getElem _ _ hj, alpha_nodup.getElem_inj_iff] at h

theorem alphaChar_mem (q : BitVec 6) : alphaChar q ∈ alpha := by
  have hq : q.toNat < alpha.length := alpha_length ▸ q.isLt
  rw [alphaChar, List.getD_eq_getElem _ _ hq]
  exact List.getElem_mem hq

theorem mem_alpha_of_mem_groupChars {b0 b1 b2 c : Byte} (hc : c ∈ groupChars b0 b1 b2) : c ∈ alpha := by
  have hall : ∀ c ∈ groupChars b0 b1 b2, c ∈ alpha := by
    simp only [groupChars, List.forall_mem_cons]
    exact ⟨alphaChar_mem _, alphaChar_mem _, alphaChar_mem _, alphaChar_mem _, List.forall_mem_nil _⟩
  exact hall c hc

/-! ## The permutation tables (R282, R283, R289) -/

/-- Settles O24: both tables are finite. -/
theorem permutationTablesUseEveryByteOnce : Obligations.PermutationTablesUseEveryByteOnce :=
  ⟨by decide, by decide, rfl, rfl, rfl, rfl, rfl, rfl, rfl, rfl⟩

/-- `perm` is the permutation table of a supported algorithm. -/
inductive TableOf : Byte → List Nat → Prop where
  | sha256 : TableOf 5 perm256
  | sha512 : TableOf 6 perm512

theorem exists_tableOf {alg : Byte} (halg : alg = 5 ∨ alg = 6) : ∃ perm, TableOf alg perm := by
  obtain rfl | rfl := halg
  · exact ⟨_, .sha256⟩
  · exact ⟨_, .sha512⟩

section
variable {alg : Byte} {perm : List Nat} (ht : TableOf alg perm)
include ht

theorem TableOf.permEntry_eq (pos : Nat) : permEntry alg pos = perm[pos]? := by
  cases ht <;> rfl

theorem TableOf.perm_range : perm.Perm (List.range (digestSize alg)) := by
  obtain ⟨h256, h512, -⟩ := permutationTablesUseEveryByteOnce
  cases ht with
  | sha256 => exact h256
  | sha512 => exact h512

theorem TableOf.length : perm.length = digestSize alg := by
  rw [ht.perm_range.length_eq, List.length_range]

theorem TableOf.mem_iff {k : Nat} : k ∈ perm ↔ k < digestSize alg := by
  rw [ht.perm_range.mem_iff, List.mem_range]

/-- Every group but the last has its three entries. -/
theorem TableOf.entry_of_full {g : Nat} (hg : g < groupCount alg - 1) : 3 * g + 2 < perm.length := by
  cases ht with
  | sha256 =>
    have : g < 10 := hg
    show 3 * g + 2 < 32
    omega
  | sha512 =>
    have : g < 21 := hg
    show 3 * g + 2 < 64
    omega

theorem TableOf.length_le : perm.length ≤ 3 * groupCount alg := by
  cases ht <;> decide

theorem TableOf.permEntry_of_lt {pos : Nat} (hpos : pos < perm.length) :
    permEntry alg pos = some (perm.getD pos 0) := by
  rw [ht.permEntry_eq, List.getElem?_eq_getElem hpos, List.getD_eq_getElem _ _ hpos]

theorem TableOf.gather_of_lt {pos : Nat} (hpos : pos < perm.length) (d : Bytes) :
    gather alg d pos = d.getD (perm.getD pos 0) 0 := by
  rw [gather, ht.permEntry_of_lt hpos]

/-- An entry that does not exist counts as a byte 0 (R286). -/
theorem TableOf.gather_of_le {pos : Nat} (hpos : perm.length ≤ pos) (d : Bytes) : gather alg d pos = 0 := by
  rw [gather, ht.permEntry_eq, List.getElem?_eq_none hpos]

/-- The digest bytes that a table selects, read from the buffer that holds the digest. -/
theorem TableOf.gather_readBytes {pos : Nat} (hpos : pos < perm.length) (m : Memory) :
    gather alg (m.readBytes 0 (digestSize alg)) pos = m.read (perm.getD pos 0) := by
  have hentry : perm.getD pos 0 < digestSize alg := by
    rw [List.getD_eq_getElem _ _ hpos]
    exact ht.mem_iff.1 (List.getElem_mem hpos)
  rw [ht.gather_of_lt hpos, Memory.readBytes_getD _ _ _ _ hentry, Nat.zero_add]

end

/-! ## The characters of a group (R290) -/

/-- The number of a group, its bytes least significant first (R109, R290). -/
def groupNumber (b0 b1 b2 : Byte) : Nat := b0.toNat + 256 * b1.toNat + 65536 * b2.toNat

theorem groupWord_toNat (b0 b1 b2 : Byte) : (groupWord b0 b1 b2).toNat = groupNumber b0 b1 b2 := by
  rw [groupWord, BitVec.toNat_append, BitVec.toNat_append, ← Nat.shiftLeft_add_eq_or_of_lt b0.isLt,
    ← Nat.shiftLeft_add_eq_or_of_lt b1.isLt, Nat.shiftLeft_eq, Nat.shiftLeft_eq, groupNumber]
  omega

theorem groupNumber_inj {b0 b1 b2 c0 c1 c2 : Byte} :
    groupNumber b0 b1 b2 = groupNumber c0 c1 c2 ↔ b0 = c0 ∧ b1 = c1 ∧ b2 = c2 := by
  unfold groupNumber
  bv_omega

theorem groupText_succ (w n : Nat) : groupText w (n + 1) = groupText w n ++ [alpha.getD (w / 64 ^ n % 64) 0] := by
  simp [groupText, List.range_succ]

@[simp] theorem groupText_length (w n : Nat) : (groupText w n).length = n := by simp [groupText]

theorem take_groupText (w : Nat) {k n : Nat} (h : k ≤ n) : (groupText w n).take k = groupText w k := by
  simp [groupText, ← List.map_take, List.take_range, h]

/-- The characters are the digits of the number to the base 64, so equal texts have equal numbers up to the digits written. -/
theorem mod_eq_of_groupText_eq {w v n : Nat} (h : groupText w n = groupText v n) : w % 64 ^ n = v % 64 ^ n := by
  induction n with
  | zero => rw [pow_zero, Nat.mod_one, Nat.mod_one]
  | succ n ih =>
    rw [groupText_succ, groupText_succ] at h
    obtain ⟨hfront, hlast⟩ := List.append_inj h (by simp)
    have hdigit : w / 64 ^ n % 64 = v / 64 ^ n % 64 :=
      eq_of_alpha_getD_eq (Nat.mod_lt _ (by decide)) (Nat.mod_lt _ (by decide)) (List.cons.inj hlast).1
    rw [pow_succ, Nat.mod_mul, Nat.mod_mul, ih hfront, hdigit]

theorem alphaChar_extractLsb' (w : BitVec 24) (j : Nat) :
    alphaChar (w.extractLsb' (6 * j) 6) = alpha.getD (w.toNat / 64 ^ j % 64) 0 := by
  rw [alphaChar, BitVec.extractLsb'_toNat, Nat.shiftRight_eq_div_pow, pow_mul]
  rfl

theorem groupChars_eq_groupText (b0 b1 b2 : Byte) : groupChars b0 b1 b2 = groupText (groupNumber b0 b1 b2) 4 := by
  have hchar := alphaChar_extractLsb' (groupWord b0 b1 b2)
  rw [groupWord_toNat] at hchar
  exact congrArg₂ _ (hchar 0) (congrArg₂ _ (hchar 1) (congrArg₂ _ (hchar 2) (congrArg₂ _ (hchar 3) rfl)))

theorem take_groupChars (b0 b1 b2 : Byte) {n : Nat} (hn : n ≤ 4) :
    (groupChars b0 b1 b2).take n = groupText (groupNumber b0 b1 b2) n := by
  rw [groupChars_eq_groupText, take_groupText _ hn]

/-! ## The text, group by group (R287, R288) -/

/-- The four characters of group `g` of the digest `d`, the missing bytes 0 (R286). -/
def groupOf (alg : Byte) (d : Bytes) (g : Nat) : Bytes :=
  groupChars (gather alg d (3 * g)) (gather alg d (3 * g + 1)) (gather alg d (3 * g + 2))

/-- The characters of the first `n` groups. -/
def firstGroups (alg : Byte) (d : Bytes) (n : Nat) : Bytes := (List.range n).flatMap (groupOf alg d)

@[simp] theorem groupOf_length (alg : Byte) (d : Bytes) (g : Nat) : (groupOf alg d g).length = 4 := rfl

theorem firstGroups_succ (alg : Byte) (d : Bytes) (n : Nat) :
    firstGroups alg d (n + 1) = firstGroups alg d n ++ groupOf alg d n := by
  simp [firstGroups, List.range_succ]

@[simp] theorem firstGroups_length (alg : Byte) (d : Bytes) (n : Nat) : (firstGroups alg d n).length = 4 * n := by
  induction n with
  | zero => rfl
  | succ n ih => rw [firstGroups_succ, List.length_append, ih, groupOf_length, Nat.mul_succ]

/-- Equal characters of several groups are equal group by group. -/
theorem groupOf_eq_of_firstGroups_eq {alg : Byte} {d e : Bytes} {n g : Nat} (hg : g < n)
    (h : firstGroups alg d n = firstGroups alg e n) : groupOf alg d g = groupOf alg e g := by
  induction n with
  | zero => exact absurd hg (Nat.not_lt_zero g)
  | succ n ih =>
    rw [firstGroups_succ, firstGroups_succ] at h
    obtain ⟨hfront, hlast⟩ := List.append_inj h (by simp)
    obtain hlt | rfl := Nat.lt_succ_iff_lt_or_eq.1 hg
    · exact ih hlt hfront
    · exact hlast

/-- The characters of the last group: three for SHA256, two for SHA512 (R287). -/
def lastGroupLength (alg : Byte) : Nat := textLength alg - 4 * (groupCount alg - 1)

theorem encodeText_eq_take (alg : Byte) (d : Bytes) :
    encodeText alg d = (firstGroups alg d (groupCount alg)).take (textLength alg) := rfl

/-- The text is the full groups and the first characters of the last group. -/
theorem encodeText_eq_append {alg : Byte} (halg : alg = 5 ∨ alg = 6) (d : Bytes) :
    encodeText alg d =
      firstGroups alg d (groupCount alg - 1) ++ (groupOf alg d (groupCount alg - 1)).take (lastGroupLength alg) := by
  have hsplit : firstGroups alg d (groupCount alg) =
      firstGroups alg d (groupCount alg - 1) ++ groupOf alg d (groupCount alg - 1) := by
    rw [← firstGroups_succ, Nat.sub_add_cancel (groupCount_pos alg)]
  have hfull : (firstGroups alg d (groupCount alg - 1)).length ≤ textLength alg := by
    rw [firstGroups_length]
    obtain rfl | rfl := halg <;> decide
  rw [encodeText_eq_take, hsplit, List.take_append, List.take_of_length_le hfull, firstGroups_length, lastGroupLength]

theorem encodeText_length {alg : Byte} (halg : alg = 5 ∨ alg = 6) (d : Bytes) :
    (encodeText alg d).length = textLength alg := by
  rw [encodeText_eq_take, List.length_take, firstGroups_length]
  obtain rfl | rfl := halg <;> decide

theorem mem_alpha_of_mem_encodeText {alg : Byte} {d : Bytes} {c : Byte} (hc : c ∈ encodeText alg d) : c ∈ alpha := by
  obtain ⟨g, -, hg⟩ := List.mem_flatMap.1 (List.mem_of_mem_take hc)
  exact mem_alpha_of_mem_groupChars hg

/-- Settles O26: the length is that of the groups cut to `ELEN`, and every character is an entry of the alphabet. -/
theorem encodedTextLengthAndAlphabet : Obligations.EncodedTextLengthAndAlphabet := by
  intro d
  exact ⟨encodeText_length (.inl rfl) d, encodeText_length (.inr rfl) d, fun _ => mem_alpha_of_mem_encodeText,
    fun _ => mem_alpha_of_mem_encodeText⟩

/-! ## The text determines the digest -/

/-- The number of group `g` of the digest `d`. -/
def groupNumberOf (alg : Byte) (d : Bytes) (g : Nat) : Nat :=
  groupNumber (gather alg d (3 * g)) (gather alg d (3 * g + 1)) (gather alg d (3 * g + 2))

theorem groupNumberOf_lt (alg : Byte) (d : Bytes) (g : Nat) : groupNumberOf alg d g < 64 ^ 4 := by
  unfold groupNumberOf groupNumber
  bv_omega

/-- Characters that hold the whole number of a group determine it. -/
theorem groupNumberOf_eq_of_take_eq {alg : Byte} {d e : Bytes} {g n : Nat} (hn : n ≤ 4)
    (hd : groupNumberOf alg d g < 64 ^ n) (he : groupNumberOf alg e g < 64 ^ n)
    (h : (groupOf alg d g).take n = (groupOf alg e g).take n) : groupNumberOf alg d g = groupNumberOf alg e g := by
  rw [groupOf, groupOf, take_groupChars _ _ _ hn, take_groupChars _ _ _ hn] at h
  have hmod := mod_eq_of_groupText_eq h
  rwa [← groupNumberOf, ← groupNumberOf, Nat.mod_eq_of_lt hd, Nat.mod_eq_of_lt he] at hmod

theorem gather_eq_of_groupNumberOf_eq {alg : Byte} {d e : Bytes} {pos : Nat}
    (h : groupNumberOf alg d (pos / 3) = groupNumberOf alg e (pos / 3)) : gather alg d pos = gather alg e pos := by
  obtain ⟨h0, h1, h2⟩ := groupNumber_inj.1 h
  have hpos : pos = 3 * (pos / 3) ∨ pos = 3 * (pos / 3) + 1 ∨ pos = 3 * (pos / 3) + 2 := by omega
  obtain hp | hp | hp := hpos <;> rw [hp] <;> assumption

section
variable {alg : Byte} {perm : List Nat} (ht : TableOf alg perm)
include ht

theorem TableOf.lastGroupLength_le : lastGroupLength alg ≤ 4 := by
  cases ht <;> decide

/-- The last group has two bytes for SHA256 and one for SHA512, so the characters written hold its whole number. -/
theorem TableOf.groupNumberOf_last_lt (d : Bytes) :
    groupNumberOf alg d (groupCount alg - 1) < 64 ^ lastGroupLength alg := by
  unfold groupNumberOf
  cases ht with
  | sha256 =>
    rw [TableOf.sha256.gather_of_le (pos := 3 * (groupCount 5 - 1) + 2) (by decide)]
    show groupNumber _ _ 0 < 64 ^ 3
    unfold groupNumber
    bv_omega
  | sha512 =>
    rw [TableOf.sha512.gather_of_le (pos := 3 * (groupCount 6 - 1) + 1) (by decide),
      TableOf.sha512.gather_of_le (pos := 3 * (groupCount 6 - 1) + 2) (by decide)]
    show groupNumber _ 0 0 < 64 ^ 2
    unfold groupNumber
    bv_omega

theorem TableOf.supported : alg = 5 ∨ alg = 6 := by
  cases ht with
  | sha256 => exact .inl rfl
  | sha512 => exact .inr rfl

theorem TableOf.groupNumberOf_eq {d e : Bytes} (h : encodeText alg d = encodeText alg e) {g : Nat}
    (hg : g < groupCount alg) : groupNumberOf alg d g = groupNumberOf alg e g := by
  rw [encodeText_eq_append ht.supported, encodeText_eq_append ht.supported] at h
  obtain ⟨hfull, hlast⟩ := List.append_inj h (by simp)
  obtain hlt | rfl : g < groupCount alg - 1 ∨ g = groupCount alg - 1 := by omega
  · exact groupNumberOf_eq_of_take_eq le_rfl (groupNumberOf_lt ..) (groupNumberOf_lt ..)
      (congrArg _ (groupOf_eq_of_firstGroups_eq hlt hfull))
  · exact groupNumberOf_eq_of_take_eq ht.lastGroupLength_le (ht.groupNumberOf_last_lt d) (ht.groupNumberOf_last_lt e) hlast

/-- Every digest byte is selected by an entry of the table (R289). -/
theorem TableOf.exists_gather {k : Nat} (hk : k < digestSize alg) :
    ∃ pos < 3 * groupCount alg, ∀ d, gather alg d pos = d.getD k 0 := by
  obtain ⟨pos, hpos, hentry⟩ := List.getElem_of_mem (ht.mem_iff.2 hk)
  refine ⟨pos, hpos.trans_le ht.length_le, fun d => ?_⟩
  rw [ht.gather_of_lt hpos, List.getD_eq_getElem _ _ hpos, hentry]

end

/-- Settles O27: the text fixes the number of every group, the numbers fix the bytes that the table selects, and those are
all bytes of the digest. -/
theorem encodedTextDeterminesTheDigest : Obligations.EncodedTextDeterminesTheDigest := by
  intro alg d e halg hd he h
  obtain ⟨perm, ht⟩ := exists_tableOf halg
  refine List.ext_getElem (hd.trans he.symm) fun k hkd hke => ?_
  obtain ⟨pos, hpos, hgather⟩ := ht.exists_gather (hd ▸ hkd)
  have hbyte : gather alg d pos = gather alg e pos :=
    gather_eq_of_groupNumberOf_eq (ht.groupNumberOf_eq h (by omega))
  rwa [hgather, hgather, List.getD_eq_getElem _ _ hkd, List.getD_eq_getElem _ _ hke] at hbyte

end Sys2Proof.Machine
end

section
/-! SUPPORT. The encoder (44_mcf_encoder.md R290 to R294): what ENCG.4, ENCG.3, ENCG.2 and phase E0 write, and the text that the
phase leaves in `ENC`. -/
namespace Sys2Proof.Machine

/-! ## The micro-operations -/

/-- The number of group `G`: the bytes of `C` that the three table entries from `3·G` on select (R291). -/
def State.selectedNumber (s : State) (perm : List Nat) : Nat :=
  groupNumber (s.bufC.read (perm.getD (3 * s.g.toNat) 0)) (s.bufC.read (perm.getD (3 * s.g.toNat + 1) 0))
    (s.bufC.read (perm.getD (3 * s.g.toNat + 2) 0))

theorem emitGroup_eq (off : Nat) {n : Nat} (hn : n ≤ 4) (b0 b1 b2 : Byte) (s : State) :
    emitGroup off n b0 b1 b2 s = { s with enc := s.enc.writeBytes off (groupText (groupNumber b0 b1 b2) n) } := by
  rw [emitGroup, take_groupChars _ _ _ hn]

theorem encodeFullGroup_of_full {s : State} {perm : List Nat} (ht : TableOf s.alg perm)
    (hg : s.g.toNat < groupCount s.alg - 1) :
    encodeFullGroup s =
      .next { s with enc := s.enc.writeBytes (4 * s.g.toNat) (groupText (s.selectedNumber perm) 4) } := by
  have hentry := ht.entry_of_full hg
  refine encodeFullGroup_next.2 ⟨groupIsFull_iff.2 hg, _, _, _, ht.permEntry_of_lt (by omega),
    ht.permEntry_of_lt (by omega), ht.permEntry_of_lt hentry, ?_⟩
  exact (emitGroup_eq _ le_rfl _ _ _ s).symm

theorem encodeFullGroup_of_not_full {s : State} (hg : groupCount s.alg - 1 ≤ s.g.toNat) :
    encodeFullGroup s = .refused .groupNotFull :=
  if_neg (groupIsFull_iff.not.2 (Nat.not_lt.2 hg))

theorem encodeLastGroup256_eq (s : State) : encodeLastGroup256 s =
    { s with enc := s.enc.writeBytes 40 (groupText ((s.bufC.read 30).toNat + 256 * (s.bufC.read 31).toNat) 3) } :=
  emitGroup_eq 40 (by decide) (s.bufC.read 30) (s.bufC.read 31) 0 s

theorem encodeLastGroup512_eq (s : State) : encodeLastGroup512 s =
    { s with enc := s.enc.writeBytes 84 (groupText (s.bufC.read 63).toNat 2) } :=
  emitGroup_eq 84 (by decide) (s.bufC.read 63) 0 0 s

theorem tableOf_of_eq_five {alg : Byte} (halg : alg = 5) : TableOf alg perm256 := halg ▸ .sha256

theorem tableOf_of_eq_six {alg : Byte} (halg : alg = 6) : TableOf alg perm512 := halg ▸ .sha512

/-- Groups 0 to 9 of SHA256 are full (00_scope.md R7). -/
theorem groupCount_sub_one_of_eq_five {alg : Byte} (halg : alg = 5) : groupCount alg - 1 = 10 := by
  rw [halg]
  rfl

/-- Groups 0 to 20 of SHA512 are full (00_scope.md R7). -/
theorem groupCount_sub_one_of_eq_six {alg : Byte} (halg : alg = 6) : groupCount alg - 1 = 21 := by
  rw [halg]
  rfl

/-- Settles O22: a full group has its three entries, and its four characters are the digits of its number. -/
theorem fullGroupWritesFourCharacters : Obligations.FullGroupWritesFourCharacters := by
  intro s
  refine ⟨fun halg hg => ?full256, fun halg hg => ?full512, fun halg hg => ?last256, fun halg hg => ?last512⟩
  case full256 =>
    rw [← groupCount_sub_one_of_eq_five halg] at hg
    exact ⟨_, encodeFullGroup_of_full (tableOf_of_eq_five halg) hg, Memory.writtenAt_writeBytes _ _ _⟩
  case full512 =>
    rw [← groupCount_sub_one_of_eq_six halg] at hg
    exact ⟨_, encodeFullGroup_of_full (tableOf_of_eq_six halg) hg, Memory.writtenAt_writeBytes _ _ _⟩
  case last256 => exact encodeFullGroup_of_not_full ((groupCount_sub_one_of_eq_five halg).trans_le hg)
  case last512 => exact encodeFullGroup_of_not_full ((groupCount_sub_one_of_eq_six halg).trans_le hg)

/-- Settles O23: the groups with the missing bytes 0. -/
theorem lastGroupsWriteTheirCharacters : Obligations.LastGroupsWriteTheirCharacters := by
  intro s
  exact ⟨⟨_, congrArg Host.Outcome.next (encodeLastGroup256_eq s), Memory.writtenAt_writeBytes _ _ _⟩,
    ⟨_, congrArg Host.Outcome.next (encodeLastGroup512_eq s), Memory.writtenAt_writeBytes _ _ _⟩⟩

/-! ## Phase E0 (R294) -/

theorem ofNat_group_succ (g : BitVec 5) : BitVec.ofNat 5 (g.toNat + 1) = g + 1 := by
  rw [BitVec.ofNat_add, BitVec.ofNat_toNat, BitVec.setWidth_eq]
  rfl

theorem execPhE0_of_full {s : State} {perm : List Nat} (ht : TableOf s.alg perm) (hg : s.g.toNat < groupCount s.alg - 1) :
    execPhE0 s = .next { s with
      enc := s.enc.writeBytes (4 * s.g.toNat) (groupText (s.selectedNumber perm) 4)
      g := BitVec.ofNat 5 (s.g.toNat + 1), ph := .e0 } := by
  rw [ofNat_group_succ]
  exact (if_pos (groupIsFull_iff.2 hg)).trans (issue_of_next (encodeFullGroup_of_full ht hg))

theorem execPhE0_of_last256 {s : State} (halg : s.alg = 5) (hg : groupCount s.alg - 1 ≤ s.g.toNat) :
    execPhE0 s = .next (goto .done (encodeLastGroup256 s)) :=
  (if_neg (groupIsFull_iff.not.2 (Nat.not_lt.2 hg))).trans (if_pos halg)

theorem execPhE0_of_last512 {s : State} (halg : s.alg = 6) (hg : groupCount s.alg - 1 ≤ s.g.toNat) :
    execPhE0 s = .next (goto .done (encodeLastGroup512 s)) :=
  (if_neg (groupIsFull_iff.not.2 (Nat.not_lt.2 hg))).trans (if_neg (by rw [halg]; decide))

/-- Settles O44: the phase issues ENCG.4 for a full group, ENCG.3 or ENCG.2 for the last one. -/
theorem encoderPhase : Obligations.EncoderPhase := by
  rintro s _ rfl
  refine ⟨fun halg hg => ?full256, fun halg hg => ?full512, fun halg hg => ?last256, fun halg hg => ?last512⟩
  case full256 =>
    rw [← groupCount_sub_one_of_eq_five halg] at hg
    exact ⟨_, execPhE0_of_full (tableOf_of_eq_five halg) hg, Memory.writtenAt_writeBytes _ _ _⟩
  case full512 =>
    rw [← groupCount_sub_one_of_eq_six halg] at hg
    exact ⟨_, execPhE0_of_full (tableOf_of_eq_six halg) hg, Memory.writtenAt_writeBytes _ _ _⟩
  case last256 =>
    have hexec := execPhE0_of_last256 halg ((groupCount_sub_one_of_eq_five halg).trans_le hg)
    rw [encodeLastGroup256_eq] at hexec
    exact ⟨_, hexec, Memory.writtenAt_writeBytes _ _ _⟩
  case last512 =>
    have hexec := execPhE0_of_last512 halg ((groupCount_sub_one_of_eq_six halg).trans_le hg)
    rw [encodeLastGroup512_eq] at hexec
    exact ⟨_, hexec, Memory.writtenAt_writeBytes _ _ _⟩

/-! ## The text in `ENC` -/

/-- Bytes written behind bytes written are one write. -/
theorem Memory.writeBytes_append (m : Memory) (off : Nat) (v u : Bytes) :
    (m.writeBytes off v).writeBytes (off + v.length) u = m.writeBytes off (v ++ u) := by
  induction v generalizing m off with
  | nil => rfl
  | cons b v ih =>
    rw [List.length_cons, Nat.add_comm v.length, ← Nat.add_assoc]
    exact ih (m.write off b) (off + 1)

/-- `s` in phase E0 with the text of its first `n` groups in `ENC`. -/
def State.encoding (s : State) (n : Nat) : State :=
  { s with enc := Memory.writeBytes [] 0 (firstGroups s.alg (s.feedBytes .c) n), g := BitVec.ofNat 5 n, ph := .e0 }

/-- `s` in phase DONE with its text in `ENC`. -/
def State.encoded (s : State) : State :=
  { s with
    enc := Memory.writeBytes [] 0 (encodeText s.alg (s.feedBytes .c))
    g := BitVec.ofNat 5 (groupCount s.alg - 1), ph := .done }

theorem encoding_g {s : State} {n : Nat} (hn : n < groupCount s.alg) : (s.encoding n).g.toNat = n := by
  have hcount := groupCount_le s.alg
  show (BitVec.ofNat 5 n).toNat = n
  rw [BitVec.toNat_ofNat]
  omega

/-- Group `n` written behind the first `n` groups. -/
theorem encoding_writeBytes (s : State) (n : Nat) (v : Bytes) :
    (s.encoding n).enc.writeBytes (4 * n) v = Memory.writeBytes [] 0 (firstGroups s.alg (s.feedBytes .c) n ++ v) := by
  rw [← Memory.writeBytes_append, firstGroups_length, Nat.zero_add]
  rfl

theorem groupText_selectedNumber {s : State} {perm : List Nat} (ht : TableOf s.alg perm)
    (hg : s.g.toNat < groupCount s.alg - 1) :
    groupText (s.selectedNumber perm) 4 = groupOf s.alg (s.feedBytes .c) s.g.toNat := by
  have hentry := ht.entry_of_full hg
  have hbyte {pos : Nat} (hpos : pos < perm.length) :
      gather s.alg (s.feedBytes .c) pos = s.bufC.read (perm.getD pos 0) := ht.gather_readBytes hpos s.bufC
  rw [groupOf, groupChars_eq_groupText, hbyte (by omega), hbyte (by omega), hbyte hentry, State.selectedNumber]

theorem groupOf_last256 {s : State} (halg : s.alg = 5) :
    groupOf s.alg (s.feedBytes .c) 10 = groupChars (s.bufC.read 30) (s.bufC.read 31) 0 := by
  have ht := tableOf_of_eq_five halg
  exact congr (congrArg₂ _ (ht.gather_readBytes (pos := 30) (by decide) s.bufC)
    (ht.gather_readBytes (pos := 31) (by decide) s.bufC)) (ht.gather_of_le (pos := 32) (by decide) _)

theorem groupOf_last512 {s : State} (halg : s.alg = 6) :
    groupOf s.alg (s.feedBytes .c) 21 = groupChars (s.bufC.read 63) 0 0 := by
  have ht := tableOf_of_eq_six halg
  exact congr (congrArg₂ _ (ht.gather_readBytes (pos := 63) (by decide) s.bufC)
    (ht.gather_of_le (pos := 64) (by decide) _)) (ht.gather_of_le (pos := 65) (by decide) _)

/-- From the last group on, the phase writes the characters that the text has of it and ends. -/
theorem execPhE0_of_last {s : State} (halg : s.alg = 5 ∨ s.alg = 6) (hg : groupCount s.alg - 1 ≤ s.g.toNat) :
    ∃ b0 b1 b2, groupOf s.alg (s.feedBytes .c) (groupCount s.alg - 1) = groupChars b0 b1 b2 ∧
      execPhE0 s =
        .next (goto .done (emitGroup (4 * (groupCount s.alg - 1)) (lastGroupLength s.alg) b0 b1 b2 s)) := by
  obtain h5 | h6 := halg
  · have hexec := execPhE0_of_last256 h5 hg
    have hlength : lastGroupLength s.alg = 3 := by rw [h5]; rfl
    rw [groupCount_sub_one_of_eq_five h5, hlength]
    exact ⟨_, _, _, groupOf_last256 h5, hexec⟩
  · have hexec := execPhE0_of_last512 h6 hg
    have hlength : lastGroupLength s.alg = 2 := by rw [h6]; rfl
    rw [groupCount_sub_one_of_eq_six h6, hlength]
    exact ⟨_, _, _, groupOf_last512 h6, hexec⟩

section
variable {s : State} (ha : s.agenda = []) (halg : s.alg = 5 ∨ s.alg = 6)
include ha halg

/-- A step of phase E0 before the last group. -/
theorem step_encoding {n : Nat} (hn : n < groupCount s.alg - 1) :
    step (s.encoding n) = .next (s.encoding (n + 1)) := by
  obtain ⟨perm, ht⟩ := exists_tableOf halg
  have hgn : (s.encoding n).g.toNat = n := encoding_g (by omega)
  have hg : (s.encoding n).g.toNat < groupCount (s.encoding n).alg - 1 := hgn.symm ▸ hn
  have htext : (s.encoding n).enc.writeBytes (4 * (s.encoding n).g.toNat)
      (groupText ((s.encoding n).selectedNumber perm) 4) = (s.encoding (n + 1)).enc := by
    rw [groupText_selectedNumber (s := s.encoding n) ht hg, hgn, encoding_writeBytes]
    exact congrArg (Memory.writeBytes [] 0) (firstGroups_succ ..).symm
  have hexec := execPhE0_of_full (s := s.encoding n) ht hg
  rw [htext, hgn] at hexec
  exact (step_of_ph (s := s.encoding n) ha rfl).trans hexec

/-- The step of the last group, whose characters behind the full groups make the text. -/
theorem step_encoding_last : step (s.encoding (groupCount s.alg - 1)) = .next s.encoded := by
  have hg : groupCount s.alg - 1 ≤ (s.encoding (groupCount s.alg - 1)).g.toNat :=
    (encoding_g (Nat.sub_one_lt_of_lt (groupCount_pos s.alg))).ge
  obtain ⟨b0, b1, b2, hlast, hexec⟩ := execPhE0_of_last (s := s.encoding _) halg hg
  have htext : (s.encoding (groupCount s.alg - 1)).enc.writeBytes (4 * (groupCount s.alg - 1))
      ((groupChars b0 b1 b2).take (lastGroupLength s.alg)) = s.encoded.enc := by
    rw [encoding_writeBytes, ← hlast]
    exact congrArg (Memory.writeBytes [] 0) (encodeText_eq_append halg _).symm
  refine (step_of_ph (s := s.encoding _) ha rfl).trans (hexec.trans ?_)
  exact congrArg (fun m => Host.Outcome.next { s.encoded with enc := m }) htext

theorem run_encoding {n : Nat} (hn : n ≤ groupCount s.alg - 1) :
    Sys2Proof.core.run n (s.encoding 0) = .next (s.encoding n) := by
  induction n with
  | zero => rfl
  | succ n ih => exact run_trans (ih (Nat.le_of_succ_le hn)) (run_one (step_encoding ha halg hn))

theorem run_encoded : Sys2Proof.core.run (groupCount s.alg) (s.encoding 0) = .next s.encoded := by
  rw [← Nat.sub_add_cancel (groupCount_pos s.alg)]
  exact run_trans (run_encoding ha halg le_rfl) (run_one (step_encoding_last ha halg))

end

/-- Settles O54: the run ends in `State.encoded`, whose `ENC` reads back as the text that was written. -/
theorem encoderWritesTheText : Obligations.EncoderWritesTheText := by
  intro s hph ha hg henc halg
  have hstart : s.encoding 0 = s := by
    show { s with enc := [], g := 0, ph := .e0 } = s
    rw [← hph, ← hg, ← henc]
  have hrun := run_encoded ha halg
  rw [hstart] at hrun
  have hlength := encodeText_length halg (s.feedBytes .c)
  refine ⟨_, hrun, Memory.readBytes_writeBytes_of_length [] hlength, fun k hk => ?_⟩
  rw [Memory.read_writeBytes, hlength, if_neg (by omega), Memory.read_nil]

end Sys2Proof.Machine
end

section
/-! SUPPORT. The host port (45_host_commands.md R320 to R333): what reads, writes and commands answer while `STATUS` is BUSY and
while it is not. -/
namespace Sys2Proof.Machine

/-! ## The rules -/

theorem busy_eq_false_iff {s : State} : s.busy = false ↔ s.ph = .idle ∨ s.ph = .done ∨ s.ph = .err := by
  rw [← Bool.not_eq_true, busy_iff]
  tauto

/-- The value of a read of `STATUS` (R28). -/
theorem status_setWidth (s : State) :
    s.status.setWidth 32 = (if s.ph = .idle then 0 else if s.ph = .done then 2 else if s.ph = .err then 3 else 1 : Word32) := by
  unfold State.status
  cases s.ph <;> rfl

theorem exec_wr_of_not_busy {s : State} (hb : s.busy = false) (o : Obj) (idx v : Word32) :
    exec (.wr o idx v) s = .next (hostWriteObj o idx v s) :=
  congrArg Host.Outcome.next (unlessBusy_of_not_busy hb)

/-- A write to `CTRL` is the command in its low byte (R330). -/
theorem exec_wr_ctrl {s : State} (hb : s.busy = false) {code : Byte} (idx : Word32) {v : Word32}
    (hv : v.toNat % 256 = code.toNat) : exec (.wr .ctrl idx v) s = .next (command code s) := by
  have hcode : v.setWidth 8 = code := BitVec.eq_of_toNat_eq (by rw [BitVec.toNat_setWidth]; exact hv)
  rw [exec_wr_of_not_busy hb, ← hcode]
  rfl

/-- A host write to the object `o` goes to the bytes of the buffer `x`, and is ignored beyond its size (R322, R69). -/
def Stores (o : Obj) (x : Buf) : Prop :=
  ∀ (s : State) (idx v : Word32), hostWriteObj o idx v s =
    if idx.toNat < s.bufSize x then s.setBuf x ((s.buf x).write idx.toNat (v.setWidth 8)) else s

theorem salt_stores : Stores .salt .salt := fun _ _ _ => rfl

theorem pw_stores : Stores .pw .pw := fun _ _ _ => rfl

section
variable {o : Obj} {x : Buf} (hox : Stores o x) {s : State} (hb : s.busy = false) {idx : Word32} (v : Word32)
include hox hb

theorem Stores.exec_of_lt (hidx : idx.toNat < s.bufSize x) :
    exec (.wr o idx v) s = .next (s.setBuf x ((s.buf x).writeBytes idx.toNat [v.setWidth 8])) := by
  rw [exec_wr_of_not_busy hb, hox, if_pos hidx]
  rfl

theorem Stores.exec_of_le (hidx : s.bufSize x ≤ idx.toNat) : exec (.wr o idx v) s = .next s := by
  rw [exec_wr_of_not_busy hb, hox, if_neg (Nat.not_lt.2 hidx)]

end

/-! ## The statements -/

/-- Settles O28, object by object. -/
theorem hostReadReturnsTheObject : Obligations.HostReadReturnsTheObject := by
  intro s idx
  have hstatus : exec (.rd .status idx) s = .next (reply (s.status.setWidth 32) s) := rfl
  rw [status_setWidth] at hstatus
  refine ⟨?zero, hstatus, rfl, rfl, rfl, rfl, rfl, rfl, rfl, rfl⟩
  simp only [List.forall_mem_cons]
  exact ⟨rfl, rfl, rfl, rfl, rfl, rfl, rfl, List.forall_mem_nil _⟩

/-- Settles O29: registers by one assignment, `SALT` and `PW` by the rule of the buffers that a host write stores to. -/
theorem hostWriteStoresTheValue : Obligations.HostWriteStoresTheValue := by
  intro s idx v hb
  have write (o : Obj) := exec_wr_of_not_busy hb o idx v
  refine ⟨write .alg, write .slen, write .rounds, write .plen,
    fun hidx => ⟨_, salt_stores.exec_of_lt hb v hidx, Memory.writtenAt_writeBytes _ _ _⟩, salt_stores.exec_of_le hb v,
    fun hidx => ⟨_, pw_stores.exec_of_lt hb v hidx, Memory.writtenAt_writeBytes _ _ _⟩, pw_stores.exec_of_le hb v, ?ignored⟩
  simp only [List.forall_mem_cons]
  exact ⟨write .status, write .err, write .digest, write .enc, write .reserved7, write .reservedC, write .reservedD,
    write .reservedE, write .reservedF, List.forall_mem_nil _⟩

/-- Settles O30: writes and commands are one operation under the test of BUSY. -/
theorem writesWhileBusyAreIgnored : Obligations.WritesWhileBusyAreIgnored := by
  intro s hidle hdone herr
  have ignored (f : State → State) : Host.Outcome.next (unlessBusy f s) = (.next s : Answer) :=
    congrArg _ (unlessBusy_of_busy (busy_iff.2 ⟨hidle, hdone, herr⟩))
  exact ⟨fun o idx v => ignored _, ignored _, ignored _, fun code => ignored _⟩

/-- Settles O31. -/
theorem startBeginsAJob : Obligations.StartBeginsAJob := by
  intro s hph
  have hb := busy_eq_false_iff.2 hph
  exact ⟨congrArg _ (unlessBusy_of_not_busy hb), fun idx v hv => exec_wr_ctrl (code := 0x01) hb idx hv⟩

/-- Settles O32. -/
theorem clearSetsTheResetValues : Obligations.ClearSetsTheResetValues := by
  rintro s hph t rfl
  have hb := busy_eq_false_iff.2 hph
  exact ⟨congrArg _ (unlessBusy_of_not_busy hb), fun idx v hv => exec_wr_ctrl (code := 0x02) hb idx hv⟩

/-- Settles O33. -/
theorem reservedCommandRaisesBadCommand : Obligations.ReservedCommandRaisesBadCommand := by
  rintro s code hph hstart hclear t rfl
  have hb := busy_eq_false_iff.2 hph
  have hcommand := command_reserved s ⟨hstart, hclear⟩
  exact ⟨congrArg _ ((unlessBusy_of_not_busy hb).trans hcommand),
    fun idx v hv => (exec_wr_ctrl hb idx hv).trans (congrArg _ hcommand)⟩

end Sys2Proof.Machine
end

section
/-! SUPPORT. The sequencer does not look at the host's turns: it takes a polling host's job where it takes the job of a host
without turns (30_encoding.md R116, 45_host_commands.md R337). -/
namespace Sys2Proof.Machine

/-! ## Runs without their number of steps -/

/-- Some number of steps leads from `s` to `t`. -/
def Reaches (s t : State) : Prop := ∃ n, Sys2Proof.core.run n s = .next t

theorem Reaches.refl (s : State) : Reaches s s := ⟨0, rfl⟩

theorem Reaches.of_step {s t : State} (h : step s = .next t) : Reaches s t := ⟨1, run_one h⟩

theorem Reaches.trans {s t u : State} : Reaches s t → Reaches t u → Reaches s u
  | ⟨_, hn⟩, ⟨_, hk⟩ => ⟨_, run_trans hn hk⟩

/-! ## Other turns to come -/

/-- `s` with other turns to come. -/
def State.withTurns (s : State) (turns : List Turn) : State := { s with agenda := turns }

theorem withTurns_of_agenda {s : State} {turns : List Turn} (h : s.agenda = turns) : s.withTurns turns = s := by
  rw [← h]
  rfl

section
variable {s t : State} (turns : List Turn)

theorem setBuf_withTurns (s : State) (x : Buf) (m : Memory) :
    (s.withTurns turns).setBuf x m = (s.setBuf x m).withTurns turns := by
  cases x <;> rfl

theorem openContext_withTurns (h : openContext s = .next t) :
    openContext (s.withTurns turns) = .next (t.withTurns turns) := by
  obtain ⟨hclosed, rfl⟩ := openContext_next.1 h
  exact openContext_of_closed hclosed

theorem feedWhole_withTurns {x : Buf} (h : feedWhole x s = .next t) :
    feedWhole x (s.withTurns turns) = .next (t.withTurns turns) := by
  obtain ⟨hopen, hrange, rfl⟩ := feedWhole_next.1 h
  exact feedWhole_next.2 ⟨hopen, hrange, rfl⟩

theorem feedPartial_withTurns (h : feedPartial s = .next t) :
    feedPartial (s.withTurns turns) = .next (t.withTurns turns) := by
  obtain ⟨hopen, hcge, rfl⟩ := feedPartial_next.1 h
  exact feedPartial_next.2 ⟨hopen, hcge, rfl⟩

theorem hashFinish_withTurns {x : Buf} (h : hashFinish x s = .next t) :
    hashFinish x (s.withTurns turns) = .next (t.withTurns turns) := by
  obtain ⟨hopen, rfl⟩ := hashFinish_next.1 h
  refine hashFinish_next.2 ⟨hopen, ?_⟩
  rw [setBuf_withTurns]
  rfl

theorem fillFromT_withTurns {x : Buf} (h : fillFromT x s = .next t) :
    fillFromT x (s.withTurns turns) = .next (t.withTurns turns) := by
  obtain ⟨hrange, rfl⟩ := fillFromT_next.1 h
  refine fillFromT_next.2 ⟨hrange, ?_⟩
  rw [setBuf_withTurns]
  rfl

theorem encodeFullGroup_withTurns (h : encodeFullGroup s = .next t) :
    encodeFullGroup (s.withTurns turns) = .next (t.withTurns turns) := by
  obtain ⟨hfull, i0, i1, i2, h0, h1, h2, rfl⟩ := encodeFullGroup_next.1 h
  exact encodeFullGroup_next.2 ⟨hfull, i0, i1, i2, h0, h1, h2, rfl⟩

theorem checkJob_withTurns {passed : State → State}
    (hpassed : ∀ u : State, passed (u.withTurns turns) = (passed u).withTurns turns) (h : checkJob passed s = .next t) :
    checkJob passed (s.withTurns turns) = .next (t.withTurns turns) := by
  obtain ⟨e, he, rfl⟩ | ⟨hnone, rfl⟩ := checkJob_next.1 h
  · exact checkJob_next.2 (.inl ⟨e, he, rfl⟩)
  · exact checkJob_next.2 (.inr ⟨hnone, (hpassed _).symm⟩)

/-- No micro-operation looks at the turns to come. -/
theorem exec_microOp_withTurns {i : Instr} (hi : i.format = .u ∨ i.format = .ue) (h : exec i s = .next t) :
    exec i (s.withTurns turns) = .next (t.withTurns turns) := by
  cases i with
  | nop | encg3 | encg2 => cases h; rfl
  | chk => exact checkJob_withTurns (passed := id) turns (fun _ => rfl) h
  | hnew => exact openContext_withTurns turns h
  | hupdPw | hupdSalt | hupdB | hupdP | hupdS | hupdC => exact feedWhole_withTurns turns h
  | hupdn => exact feedPartial_withTurns turns h
  | hfinB | hfinC | hfinT => exact hashFinish_withTurns turns h
  | fillP | fillS => exact fillFromT_withTurns turns h
  | encg4 => exact encodeFullGroup_withTurns turns h
  | _ => simp [Instr.format] at hi

end

/-! ## Phases, through the table of the microprogram -/

theorem microOp_of_issuedBy {s : State} {u : Instr} (h : issuedBy s = some u) : u.format = .u ∨ u.format = .ue := by
  revert h
  unfold issuedBy
  cases s.ph with
  | idle | done | err => nofun
  | chk | b0 | a0 | dp0 | ds0 | b1 | b3 | a1 | b2 | a2 | b4 | a5 | r5 | dp2 | ds2 | p0 | s0 =>
    rintro ⟨⟩
    decide
  | a3 | dp1 | ds1 | rt | r1 | r2 | r3 | r4 =>
    dsimp only
    split <;> rintro ⟨⟩ <;> decide
  | a4 | e0 =>
    dsimp only
    split
    · rintro ⟨⟩
      decide
    · split <;> rintro ⟨⟩ <;> decide

theorem exists_issuedBy_of_busy {s : State} (hb : s.busy = true) : ∃ u, issuedBy s = some u := by
  obtain ⟨hidle, hdone, herr⟩ := busy_iff.1 hb
  unfold issuedBy
  cases hp : s.ph with
  | idle => exact absurd hp hidle
  | done => exact absurd hp hdone
  | err => exact absurd hp herr
  | _ => exact ⟨_, rfl⟩

/-- No running phase looks at the turns to come: neither its micro-operation nor the table's writes do. -/
theorem exec_phaseInstr_withTurns {s t : State} (turns : List Turn) (hb : s.busy = true)
    (h : exec (phaseInstr s.ph) s = .next t) :
    exec (phaseInstr s.ph) (s.withTurns turns) = .next (t.withTurns turns) := by
  by_cases hchk : s.ph = .chk
  · rw [hchk] at h ⊢
    exact checkJob_withTurns (passed := goto .b0) turns (fun _ => rfl) h
  · obtain ⟨u, hu⟩ := exists_issuedBy_of_busy hb
    rw [phasesFollowTheMicroprogram s u hchk hu] at h
    obtain ⟨v, hv, hvt⟩ := andThen_next.1 h
    cases hvt
    refine (phasesFollowTheMicroprogram (s.withTurns turns) u hchk hu).trans ?_
    rw [exec_microOp_withTurns turns (microOp_of_issuedBy hu) hv]
    rfl

/-! ## A polling host -/

/-- While the host polls, the sequencer goes where it would go without a host (log entry 6). -/
theorem Reaches.poll {s t : State} (h : Reaches s t) (ha : s.agenda = []) (rest : List Turn) :
    Reaches (s.withTurns (.poll :: rest)) (t.withTurns (.poll :: rest)) := by
  obtain ⟨n, hn⟩ := h
  induction n generalizing s with
  | zero =>
    cases hn
    exact .refl _
  | succ n ih =>
    cases hs : s.busy with
    | false =>
      rw [run_of_terminal (n + 1) (busy_eq_false_iff.1 hs) ha] at hn
      cases hn
      exact .refl _
    | true =>
      rw [run_succ] at hn
      obtain ⟨u, hstep, hu⟩ := andThen_next.1 hn
      rw [step_of_agenda_nil ha] at hstep
      have hua : u.agenda = s.agenda :=
        congrArg (fun side => side.1.agenda) (exec_phaseInstr_keepsHostSide s.ph s u hstep)
      have hpoll := step_of_fetch_sequencerWord (fetch_of_poll_busy (s := s.withTurns (.poll :: rest)) rfl hs)
      exact (Reaches.of_step (hpoll.trans (exec_phaseInstr_withTurns (s := s) _ hs hstep))).trans (ih (hua.trans ha) hu)

end Sys2Proof.Machine
end

section
/-! SUPPORT. A job from CHK to its end (42_digest_setup.md R227, R228; 43_round_loop.md R251; 44_mcf_encoder.md R288). -/
namespace Sys2Proof.Machine

/-- `s` is DONE with the digest and the text of the job `j`. -/
structure Job.FinishedIn (j : Job) (s : State) : Prop where
  done : s.ph = .done
  digest : s.bufC.readBytes 0 (digestSize j.alg) = j.digest
  text : s.enc.readBytes 0 (textLength j.alg) = encodeText j.alg j.digest

/-- The chain from the set-up values is the job's digest (R251). -/
theorem chainFrom_setUp (s : State) :
    chainFrom s.alg (s.setUp.bufP.readBytes 0 s.plen.toNat) (s.setUp.bufS.readBytes 0 s.slen.toNat)
      (s.setUp.bufC.readBytes 0 (digestSize s.alg)) s.rounds.toNat = s.job.digest := by
  have hP : s.setUp.bufP.readBytes 0 s.plen.toNat = s.job.seqP :=
    Memory.readBytes_writeBytes_of_length _ ((rep_length ..).trans (job_pw_length s))
  have hS : s.setUp.bufS.readBytes 0 s.slen.toNat = s.job.seqS :=
    Memory.readBytes_writeBytes_of_length _ ((rep_length ..).trans (job_salt_length s))
  have hC : s.setUp.bufC.readBytes 0 (digestSize s.alg) = s.job.digestA := readBytes_writeBytes_hashBytes ..
  rw [hP, hS, hC]
  rfl

/-- A job without an error is finished: set-up, round loop, encoder. -/
theorem reaches_finished {s : State} (hph : s.ph = .chk) (ha : s.agenda = []) (hjob : jobError s = none) :
    ∃ t, Reaches s t ∧ s.job.FinishedIn t ∧ t.pwMax = s.pwMax ∧ t.replies = s.replies := by
  obtain ⟨halg, -, -⟩ := jobError_none.1 hjob
  obtain ⟨m, hrounds, hdigest, -⟩ := roundLoopComputesTheChain s.setUp rfl ha rfl rfl hjob
  obtain ⟨e, hencode, htext, -⟩ :=
    encoderWritesTheText { s.setUp with bufC := m, i := s.rounds, ph := .e0 } rfl ha rfl rfl halg
  have hm : m.readBytes 0 (digestSize s.alg) = s.job.digest := hdigest.trans (chainFrom_setUp s)
  exact ⟨_, .trans ⟨_, run_setup hph ha hjob⟩ (.trans ⟨_, hrounds⟩ ⟨_, hencode⟩),
    { done := rfl, digest := hm, text := hm ▸ htext }, rfl, rfl⟩

/-- A job with an error ends in it at once (R227). -/
theorem reaches_raiseError {s : State} (hph : s.ph = .chk) (ha : s.agenda = []) {code : Byte}
    (herror : jobError s = some code) : Reaches s (raiseError code s) :=
  .of_step ((step_of_ph ha hph).trans (checkJob_next.2 (.inl ⟨code, herror, rfl⟩)))

end Sys2Proof.Machine
end

section
/-! SUPPORT. The turns of a host that follows the protocol (45_host_commands.md R337), each with what it leaves behind. -/
namespace Sys2Proof.Machine

/-! ## One access -/

/-- `s` with values appended to those that the host has read. -/
def State.heard (s : State) (values : List Word32) : State := { s with replies := s.replies ++ values }

theorem heard_nil (s : State) : s.heard [] = s := by
  rw [State.heard, List.append_nil]

theorem heard_heard (s : State) (values more : List Word32) : (s.heard values).heard more = s.heard (values ++ more) := by
  simp [State.heard]

theorem hostWriteObj_withTurns (o : Obj) (idx v : Word32) (turns : List Turn) (s : State) :
    hostWriteObj o idx v (s.withTurns turns) = (hostWriteObj o idx v s).withTurns turns := by
  cases o with
  | ctrl =>
    unfold hostWriteObj command
    dsimp only
    split
    · rfl
    · split <;> rfl
  | salt | pw =>
    dsimp only [hostWriteObj, State.withTurns]
    split <;> rfl
  | _ => rfl

theorem step_turnOf {i : Instr} (hwf : i.wf = true) (s : State) (rest : List Turn) :
    step (s.withTurns (turnOf i :: rest)) = exec i (s.withTurns rest) :=
  step_of_fetch (fetch_of_word rfl) (decode_word_of_wf hwf)

section
variable {s : State} {rest : List Turn}

theorem reaches_wrTurn (hb : s.busy = false) {o : Obj} {k v : Nat} {t : State}
    (hwrite : hostWriteObj o (BitVec.ofNat 32 k) (BitVec.ofNat 32 v) s = t) :
    Reaches (s.withTurns (wrTurn o k v :: rest)) (t.withTurns rest) := by
  refine .of_step ((step_turnOf rfl s rest).trans ?_)
  rw [exec_wr_of_not_busy (s := s.withTurns rest) hb, hostWriteObj_withTurns, hwrite]

theorem reaches_rdTurn (o : Obj) (k : Nat) :
    Reaches (s.withTurns (rdTurn o k :: rest)) ((s.heard [hostReadValue o (BitVec.ofNat 32 k) s]).withTurns rest) :=
  .of_step (step_turnOf rfl s rest)

theorem reaches_waitTurn (hb : s.busy = false) :
    Reaches (s.withTurns (waitTurn :: rest)) ((s.heard [s.status.setWidth 32]).withTurns rest) :=
  .of_step (step_of_fetch (fetch_of_poll_not_busy (s := s.withTurns (waitTurn :: rest)) rfl hb)
    (decode_word_of_wf (i := .rd .status 0) rfl))

/-! ## Sequences of bytes -/

theorem setBuf_buf (s : State) (x : Buf) : s.setBuf x (s.buf x) = s := by
  cases x <;> rfl

theorem setBuf_setBuf (s : State) (x : Buf) (m m' : Memory) : (s.setBuf x m).setBuf x m' = s.setBuf x m' := by
  cases x <;> rfl

theorem busy_eq_of_ph_eq {s t : State} (h : t.ph = s.ph) : t.busy = s.busy := by
  rw [State.busy, State.busy, State.status, State.status, h]

theorem setWidth_ofNat_toNat (v : Byte) : (BitVec.ofNat 32 v.toNat).setWidth 8 = v := by
  bv_omega

/-- The writes of a sequence of bytes change one buffer, and write the sequence where it fits. -/
theorem reaches_wrBytes {o : Obj} {x : Buf} (hox : Stores o x) (bytes : Bytes) (k : Nat) (hb : s.busy = false) :
    ∃ m, Reaches (s.withTurns (wrBytes o k bytes ++ rest)) ((s.setBuf x m).withTurns rest) ∧
      (k + bytes.length ≤ s.bufSize x → s.bufSize x ≤ 2 ^ 32 → m = (s.buf x).writeBytes k bytes) := by
  induction bytes generalizing s k with
  | nil =>
    refine ⟨s.buf x, ?_, fun _ _ => rfl⟩
    rw [setBuf_buf]
    exact .refl _
  | cons v bytes ih =>
    have hwrite := reaches_wrTurn (rest := wrBytes o (k + 1) bytes ++ rest) hb
      (hox s (BitVec.ofNat 32 k) (BitVec.ofNat 32 v.toNat))
    rw [setWidth_ofNat_toNat] at hwrite
    by_cases hk : (BitVec.ofNat 32 k).toNat < s.bufSize x
    · rw [if_pos hk] at hwrite
      obtain ⟨m, hrest, hm⟩ := ih (k + 1) ((busy_eq_of_ph_eq (setBuf_ph s x _)).trans hb)
      rw [setBuf_setBuf] at hrest
      rw [bufSize_setBuf, buf_setBuf_self] at hm
      refine ⟨m, hwrite.trans hrest, fun hfit hsize => ?_⟩
      rw [List.length_cons] at hfit
      have hindex : (BitVec.ofNat 32 k).toNat = k := by
        rw [BitVec.toNat_ofNat]
        omega
      rw [hm (by omega) hsize, hindex]
      rfl
    · rw [if_neg hk] at hwrite
      obtain ⟨m, hrest, -⟩ := ih (k + 1) hb
      refine ⟨m, hwrite.trans hrest, fun hfit hsize => absurd ?_ hk⟩
      rw [List.length_cons] at hfit
      rw [BitVec.toNat_ofNat]
      omega

/-- In DONE a host read of the object `o` shows a byte of the buffer `x` (R30, R31). -/
def Shows (o : Obj) (x : Buf) : Prop :=
  ∀ (s : State) (idx : Word32), s.ph = .done → idx.toNat < s.bufSize x →
    hostReadValue o idx s = ((s.buf x).read idx.toNat).setWidth 32

theorem digest_shows : Shows .digest .c := fun _ _ hdone hidx => if_pos ⟨hdone, hidx⟩

theorem enc_shows : Shows .enc .enc := fun _ _ hdone hidx => if_pos ⟨hdone, hidx⟩

theorem reaches_rdTurns (o : Obj) (indices : List Nat) :
    Reaches (s.withTurns (indices.map (rdTurn o) ++ rest))
      ((s.heard (indices.map fun k => hostReadValue o (BitVec.ofNat 32 k) s)).withTurns rest) := by
  induction indices generalizing s with
  | nil =>
    rw [List.map_nil, List.map_nil, heard_nil]
    exact .refl _
  | cons k indices ih =>
    have hread := reaches_rdTurn (s := s) (rest := indices.map (rdTurn o) ++ rest) o k
    have hrest := ih (s := s.heard [hostReadValue o (BitVec.ofNat 32 k) s])
    rw [heard_heard] at hrest
    exact hread.trans hrest

theorem reaches_rdBytes {o : Obj} {x : Buf} (hox : Shows o x) (hdone : s.ph = .done) {n : Nat} (hn : n ≤ s.bufSize x)
    (hsize : s.bufSize x ≤ 2 ^ 32) :
    Reaches (s.withTurns ((List.range n).map (rdTurn o) ++ rest))
      ((s.heard (((s.buf x).readBytes 0 n).map (BitVec.setWidth 32))).withTurns rest) := by
  have hvalues : (List.range n).map (fun k => hostReadValue o (BitVec.ofNat 32 k) s) =
      ((s.buf x).readBytes 0 n).map (BitVec.setWidth 32) := by
    rw [Memory.readBytes_zero, List.map_map]
    refine List.map_congr_left fun k hk => ?_
    have hkn := List.mem_range.1 hk
    have hindex : (BitVec.ofNat 32 k).toNat = k := by
      rw [BitVec.toNat_ofNat]
      omega
    rw [hox s _ hdone (by omega), hindex]
    rfl
  exact hvalues ▸ reaches_rdTurns o (List.range n)

end

/-! ## Steps (1) to (4) of the protocol: submit the job -/

/-- `s` after the writes of a job and START, with these contents of `SALT` and `PW`. -/
def State.submitted (s : State) (j : Job) (salt pw : Memory) : State :=
  { s with
    alg := j.alg, rounds := BitVec.ofNat 32 j.rounds, slen := BitVec.ofNat 8 j.salt.length
    plen := BitVec.ofNat 32 (min j.pw.length 0xFFFFFFFF), salt := salt, pw := pw, err := 0, ph := .chk }

theorem submitJob_append (j : Job) (rest : List Turn) :
    submitJob j ++ rest = wrTurn .alg 0 j.alg.toNat :: wrTurn .rounds 0 j.rounds ::
      (wrBytes .salt 0 j.salt ++ wrTurn .slen 0 j.salt.length ::
        (wrBytes .pw 0 j.pw ++ wrTurn .plen 0 (min j.pw.length 0xFFFFFFFF) :: goTurn :: rest)) := by
  simp [submitJob, loadSalt, loadPw]

/-- The writes of the job (R337, steps 2 and 3): a salt or a password that fits its buffer is stored in it. -/
theorem reaches_submitted {s : State} (j : Job) (rest : List Turn) (hb : s.busy = false) (hmax : s.pwMax ≤ 2 ^ 30) :
    ∃ salt pw, Reaches (s.withTurns (submitJob j ++ rest)) ((s.submitted j salt pw).withTurns rest) ∧
      (j.salt.length ≤ 16 → salt = s.salt.writeBytes 0 j.salt) ∧
      (j.pw.length ≤ s.pwMax → pw = s.pw.writeBytes 0 j.pw) := by
  obtain ⟨salt, hsalt, hsaltFits⟩ := reaches_wrBytes
    (s := { s with alg := j.alg, rounds := BitVec.ofNat 32 j.rounds }) salt_stores j.salt 0 hb
  obtain ⟨pw, hpw, hpwFits⟩ := reaches_wrBytes (s := { s with
    alg := j.alg, rounds := BitVec.ofNat 32 j.rounds, salt := salt, slen := BitVec.ofNat 8 j.salt.length })
    pw_stores j.pw 0 hb
  have halg : hostWriteObj .alg (BitVec.ofNat 32 0) (BitVec.ofNat 32 j.alg.toNat) s = { s with alg := j.alg } :=
    congrArg (fun alg => { s with alg := alg }) (setWidth_ofNat_toNat j.alg)
  have hslen (t : State) : hostWriteObj .slen (BitVec.ofNat 32 0) (BitVec.ofNat 32 j.salt.length) t =
      { t with slen := BitVec.ofNat 8 j.salt.length } :=
    congrArg (fun slen => { t with slen := slen }) (BitVec.setWidth_ofNat_of_le (by decide) _)
  refine ⟨salt, pw, ?_, fun hfit => hsaltFits (by simpa [State.bufSize] using hfit) (by simp [State.bufSize]),
    fun hfit => hpwFits (by simpa [State.bufSize] using hfit) (hmax.trans (by decide))⟩
  rw [submitJob_append]
  refine .trans (reaches_wrTurn hb halg) (.trans (reaches_wrTurn (by exact hb) rfl) (hsalt.trans ?_))
  refine .trans (reaches_wrTurn (by exact hb) (hslen _)) (hpw.trans ?_)
  exact .trans (reaches_wrTurn (by exact hb) rfl) (reaches_wrTurn (by exact hb) rfl)

/-! ## Steps (5) and (6): read the result or the error, CLEAR -/

/-- The reset values of a block of this `PW_MAX` whose host has read these values. -/
def clearedBlock (pwMax : Nat) (replies : List Word32) : State :=
  { State.reset with pwMax := pwMax, replies := replies }

theorem reaches_cleared {s : State} (hb : s.busy = false) :
    Reaches (s.withTurns [wrTurn .ctrl 0 0x02]) (clearedBlock s.pwMax s.replies) :=
  reaches_wrTurn hb (t := toReset s) rfl

theorem textLength_le (alg : Byte) : textLength alg ≤ 86 := by
  unfold textLength
  split
  · decide
  · split
    · decide
    · omega

theorem reaches_collectResult {s : State} {j : Job} (h : j.FinishedIn s) :
    Reaches (s.withTurns (collectResult j.alg))
      (clearedBlock s.pwMax (s.replies ++ (j.digest ++ encodeText j.alg j.digest).map (BitVec.setWidth 32))) := by
  have hb : s.busy = false := busy_eq_false_iff.2 (.inr (.inl h.done))
  have hdigest := reaches_rdBytes (rest := rdEnc j.alg ++ [wrTurn .ctrl 0 0x02]) digest_shows h.done
    (digestSize_le j.alg) (show 64 ≤ 2 ^ 32 by decide)
  have htext := reaches_rdBytes (s := s.heard ((s.bufC.readBytes 0 (digestSize j.alg)).map (BitVec.setWidth 32)))
    (rest := [wrTurn .ctrl 0 0x02]) enc_shows h.done (textLength_le j.alg) (show 86 ≤ 2 ^ 32 by decide)
  have happend : collectResult j.alg = rdDigest j.alg ++ (rdEnc j.alg ++ [wrTurn .ctrl 0 0x02]) := List.append_assoc ..
  rw [happend, List.map_append, ← h.text, ← h.digest, ← List.append_assoc s.replies]
  exact hdigest.trans (htext.trans (reaches_cleared hb))

theorem reaches_collectError {s : State} (hb : s.busy = false) :
    Reaches (s.withTurns collectError) (clearedBlock s.pwMax (s.replies ++ [s.err.setWidth 32])) :=
  (reaches_rdTurn .err 0).trans (reaches_cleared (s := s.heard [s.err.setWidth 32]) hb)

/-! ## The submitted job -/

theorem jobError_of_unsupported {s : State} (halg : s.alg ≠ 5 ∧ s.alg ≠ 6) : jobError s = some errUnsupportedAlgorithm :=
  if_pos halg

theorem jobError_of_badLength {s : State} (halg : s.alg = 5 ∨ s.alg = 6)
    (hlength : 16 < s.slen.toNat ∨ s.pwMax < s.plen.toNat) : jobError s = some errBadLength := by
  rw [← fits_eq_false_iff (n := s.plen.toNat)] at hlength
  rw [jobError, if_neg (by tauto), if_pos hlength]

section
variable (s : State) (j : Job) (salt pw : Memory)

theorem submitted_slen_toNat : (s.submitted j salt pw).slen.toNat = j.salt.length % 256 := BitVec.toNat_ofNat ..

theorem submitted_plen_toNat : (s.submitted j salt pw).plen.toNat = min j.pw.length 0xFFFFFFFF := by
  refine (BitVec.toNat_ofNat ..).trans (Nat.mod_eq_of_lt ?_)
  omega

end

theorem jobError_submitted {s : State} {j : Job} (halg : j.alg = 5 ∨ j.alg = 6) (hsalt : j.salt.length ≤ 16)
    (hpw : j.pw.length ≤ s.pwMax) (salt pw : Memory) : jobError (s.submitted j salt pw) = none := by
  have hslen := submitted_slen_toNat s j salt pw
  have hplen := submitted_plen_toNat s j salt pw
  refine jobError_none.2 ⟨halg, by omega, ?_⟩
  show _ ≤ s.pwMax
  omega

theorem job_submitted (s : State) {j : Job} (hrounds : j.rounds < 2 ^ 32) (hsalt : j.salt.length ≤ 16)
    (hpw : j.pw.length ≤ 2 ^ 30) :
    (s.submitted j (s.salt.writeBytes 0 j.salt) (s.pw.writeBytes 0 j.pw)).job = j := by
  obtain ⟨alg, rounds, salt, pw⟩ := j
  rw [State.job, submitted_slen_toNat, submitted_plen_toNat, Job.mk.injEq]
  dsimp only at hsalt hpw hrounds ⊢
  exact ⟨rfl, (BitVec.toNat_ofNat ..).trans (Nat.mod_eq_of_lt hrounds),
    Memory.readBytes_writeBytes_of_length _ (by omega), Memory.readBytes_writeBytes_of_length _ (by omega)⟩

/-! ## The protocol -/

/-- From the first poll to the second (R337, steps 1 to 4): what CHK makes of the submitted job is what the host waits for. -/
theorem reaches_of_submitProtocol {s : State} (j : Job) (rest : List Turn) (hb : s.busy = false)
    (hmax : s.pwMax ≤ 2 ^ 30) :
    ∃ salt pw,
      (∀ t, Reaches (((s.heard [s.status.setWidth 32]).submitted j salt pw).withTurns []) t → t.busy = false →
        Reaches (s.withTurns (submitProtocol j ++ rest)) ((t.heard [t.status.setWidth 32]).withTurns rest)) ∧
      (j.salt.length ≤ 16 → salt = s.salt.writeBytes 0 j.salt) ∧
      (j.pw.length ≤ s.pwMax → pw = s.pw.writeBytes 0 j.pw) := by
  obtain ⟨salt, pw, hsubmit, hsalt, hpw⟩ :=
    reaches_submitted (s := s.heard [s.status.setWidth 32]) j (waitTurn :: rest) hb hmax
  refine ⟨salt, pw, fun t ht htb => ?_, hsalt, hpw⟩
  have happend : submitProtocol j ++ rest = waitTurn :: (submitJob j ++ waitTurn :: rest) := by
    simp [submitProtocol]
  rw [happend]
  exact (reaches_waitTurn hb).trans (hsubmit.trans ((ht.poll rfl rest).trans (reaches_waitTurn htb)))

/-- The protocol of a job that ends in DONE. -/
theorem reaches_of_jobProtocol {s : State} {j : Job} (hb : s.busy = false) (hmax : s.pwMax ≤ 2 ^ 30)
    (halg : j.alg = 5 ∨ j.alg = 6) (hrounds : j.rounds < 2 ^ 32) (hsalt : j.salt.length ≤ 16)
    (hpw : j.pw.length ≤ s.pwMax) :
    Reaches (s.withTurns (jobProtocol j)) (clearedBlock s.pwMax (s.replies ++ [s.status.setWidth 32, 2] ++
      (j.digest ++ encodeText j.alg j.digest).map (BitVec.setWidth 32))) := by
  obtain ⟨salt, pw, hprotocol, hsaltFits, hpwFits⟩ := reaches_of_submitProtocol j (collectResult j.alg) hb hmax
  obtain ⟨t, ht, hfinished, hpwMax, hreplies⟩ :=
    reaches_finished (s := ((s.heard [s.status.setWidth 32]).submitted j salt pw).withTurns []) rfl rfl
      (jobError_submitted halg hsalt hpw salt pw)
  have hjob : (((s.heard [s.status.setWidth 32]).submitted j salt pw).withTurns []).job = j := by
    rw [hsaltFits hsalt, hpwFits hpw]
    exact job_submitted _ hrounds hsalt (hpw.trans hmax)
  rw [hjob] at hfinished
  have hheard : (t.heard [t.status.setWidth 32]).replies = s.replies ++ [s.status.setWidth 32, 2] := by
    rw [State.heard, hreplies, status_eq_two_iff.2 hfinished.done]
    exact List.append_assoc ..
  have hend : (t.heard [t.status.setWidth 32]).pwMax = s.pwMax := hpwMax
  have hsubmit := hprotocol t ht (busy_eq_false_iff.2 (.inr (.inl hfinished.done)))
  have hcollect := reaches_collectResult (s := t.heard [t.status.setWidth 32]) { hfinished with }
  rw [hheard, hend] at hcollect
  exact hsubmit.trans hcollect

/-- The protocol of a job that CHK ends in ERROR. -/
theorem reaches_of_failedJobProtocol {s : State} {j : Job} (hb : s.busy = false) (hmax : s.pwMax ≤ 2 ^ 30) {code : Byte}
    (herror : ∀ salt pw, jobError (s.submitted j salt pw) = some code) :
    Reaches (s.withTurns (failedJobProtocol j))
      (clearedBlock s.pwMax (s.replies ++ [s.status.setWidth 32, 3, code.setWidth 32])) := by
  obtain ⟨salt, pw, hprotocol, -, -⟩ := reaches_of_submitProtocol j collectError hb hmax
  have hsubmit := hprotocol _ (reaches_raiseError rfl rfl (herror salt pw)) rfl
  have hheard : s.replies ++ [s.status.setWidth 32, 3, code.setWidth 32] =
      s.replies ++ [s.status.setWidth 32] ++ [3] ++ [code.setWidth 32] := by simp
  rw [hheard]
  exact hsubmit.trans (reaches_collectError rfl)

/-- Settles O57: a job that fits is finished and read out; any other is one that CHK ends in its error. -/
theorem hostProtocolReturnsDigestAndText : Obligations.HostProtocolReturnsDigestAndText := by
  intro s j hph hmax
  have hb := busy_eq_false_iff.2 hph
  refine ⟨fun ha halg hrounds hsalt hpw => ?done, fun code ha hcode => ?failed⟩
  case done =>
    have h := reaches_of_jobProtocol hb hmax halg hrounds hsalt hpw
    rwa [withTurns_of_agenda ha] at h
  case failed =>
    obtain ⟨h5, h6, rfl⟩ | ⟨halg, hlength, rfl⟩ := hcode
    · have h := reaches_of_failedJobProtocol hb hmax fun salt pw =>
        jobError_of_unsupported (s := s.submitted j salt pw) ⟨h5, h6⟩
      rwa [withTurns_of_agenda ha] at h
    · have h := reaches_of_failedJobProtocol hb hmax fun salt pw =>
        jobError_of_badLength (s := s.submitted j salt pw) halg (by
          rw [submitted_slen_toNat, submitted_plen_toNat]
          show _ ∨ s.pwMax < _
          omega)
      rwa [withTurns_of_agenda ha] at h

end Sys2Proof.Machine
end

section
/-! SUPPORT. The parser of MCF prefixes (46_parser_facade.md R352 to R361): what it answers to their segments, and the
invariants of the parameters that it answers. -/
namespace Sys2Proof.Machine

/-! ## The tests of the parser -/

/-- The salt test succeeds exactly when the salt, cut to 16 bytes, is of the alphabet. -/
theorem checkSalt_ok {alg : Byte} {rounds : Nat} {explicit : Bool} {salt : Bytes} {p : Parameters} :
    checkSalt alg rounds explicit salt = .ok p ↔
      (∀ c ∈ salt.take 16, c ∈ alpha) ∧ p = ⟨alg, rounds, salt.take 16, explicit⟩ := by
  have hall : ((salt.take 16).all fun c => alpha.contains c) = true ↔ ∀ c ∈ salt.take 16, c ∈ alpha := by
    simp only [List.all_eq_true, List.contains_iff_mem]
  by_cases h : ∀ c ∈ salt.take 16, c ∈ alpha
  · rw [checkSalt, if_pos (hall.2 h), Parsed.ok.injEq, eq_comm, and_iff_right h]
  · rw [checkSalt, if_neg (hall.not.2 h)]
    exact iff_of_false nofun fun hp => h hp.1

theorem parseAlgorithm_some {seg : Bytes} {alg : Byte} (h : parseAlgorithm seg = some alg) : alg = 5 ∨ alg = 6 := by
  unfold parseAlgorithm at h
  split at h
  · exact .inl (Option.some.inj h).symm
  · split at h
    · exact .inr (Option.some.inj h).symm
    · cases h

theorem withRounds_ok {alg : Byte} {seg salt : Bytes} {p : Parameters} (h : withRounds alg seg salt = .ok p) :
    ∃ v, checkSalt alg (clampRounds v) true salt = .ok p := by
  unfold withRounds at h
  split at h
  · exact ⟨_, h⟩
  · cases h

theorem withRounds_of_value {alg : Byte} {seg salt : Bytes} {v : Nat} (h : decimalValue (seg.drop 7) = some v) :
    withRounds alg seg salt = checkSalt alg (clampRounds v) true salt := by
  rw [withRounds, h]

/-! ## The segments that the parser accepts -/

section
variable {generate : Nat → Bytes} {mcf a x y : Bytes} {alg : Byte} (ha : parseAlgorithm a = some alg)
include ha

theorem parse_of_algorithm (h : segments mcf = [a]) :
    parse generate mcf = checkSalt alg 5000 false (generate 16) := by
  simp [parse, h, ha]

theorem parse_of_rounds (h : segments mcf = [a, x]) (hx : isRoundsSegment x = true) :
    parse generate mcf = withRounds alg x (generate 16) := by
  simp [parse, h, ha, hx]

theorem parse_of_salt (h : segments mcf = [a, x]) (hx : isRoundsSegment x = false) :
    parse generate mcf = checkSalt alg 5000 false x := by
  simp [parse, h, ha, hx]

theorem parse_of_rounds_salt (h : segments mcf = [a, x, y]) (hx : isRoundsSegment x = true) :
    parse generate mcf = withRounds alg x y := by
  simp [parse, h, ha, hx]

end

/-! ## The invariants (R350) -/

/-- What holds of all parameters of a job but the algorithm, which a host's default may leave unsupported (log entry 25). -/
structure Parameters.InRange (p : Parameters) : Prop where
  rounds_ge : 1000 ≤ p.rounds
  rounds_le : p.rounds ≤ 999999999
  salt_length : p.salt.length ≤ 16
  salt_alpha : ∀ c ∈ p.salt, c ∈ alpha

theorem inRange_of_checkSalt {alg : Byte} {rounds : Nat} {explicit : Bool} {salt : Bytes} {p : Parameters}
    (hlo : 1000 ≤ rounds) (hhi : rounds ≤ 999999999) (h : checkSalt alg rounds explicit salt = .ok p) :
    p.alg = alg ∧ p.InRange := by
  obtain ⟨halpha, rfl⟩ := checkSalt_ok.1 h
  exact ⟨rfl, hlo, hhi, List.length_take_le 16 salt, halpha⟩

theorem inRange_of_default {alg : Byte} {salt : Bytes} {p : Parameters} (h : checkSalt alg 5000 false salt = .ok p) :
    p.alg = alg ∧ p.InRange :=
  inRange_of_checkSalt (by decide) (by decide) h

theorem inRange_of_withRounds {alg : Byte} {seg salt : Bytes} {p : Parameters} (h : withRounds alg seg salt = .ok p) :
    p.alg = alg ∧ p.InRange := by
  obtain ⟨v, hv⟩ := withRounds_ok h
  exact inRange_of_checkSalt (by unfold clampRounds; omega) (by unfold clampRounds; omega) hv

/-- Every answer of the parser names its algorithm and comes from the salt test. -/
theorem inRange_of_parse {generate : Nat → Bytes} {mcf : Bytes} {p : Parameters} (h : parse generate mcf = .ok p) :
    ∃ alg, (alg = 5 ∨ alg = 6) ∧ p.alg = alg ∧ p.InRange := by
  unfold parse at h
  split at h
  case h_1 =>
    split at h
    · exact ⟨_, parseAlgorithm_some ‹_›, inRange_of_default h⟩
    · cases h
  case h_2 =>
    split at h
    · split at h
      · exact ⟨_, parseAlgorithm_some ‹_›, inRange_of_withRounds h⟩
      · exact ⟨_, parseAlgorithm_some ‹_›, inRange_of_default h⟩
    · cases h
  case h_3 =>
    split at h
    · split at h
      · exact ⟨_, parseAlgorithm_some ‹_›, inRange_of_withRounds h⟩
      · cases h
    · cases h
  case h_4 => cases h

/-- Settles O59: each branch of the parser that answers ends in the salt test. -/
theorem parsedParametersKeepTheInvariants : Obligations.ParsedParametersKeepTheInvariants := by
  intro generate mcf p h
  obtain ⟨alg, halg, rfl, hlo, hhi, hlength, halpha⟩ := inRange_of_parse h
  exact ⟨halg, hlo, hhi, hlength, halpha⟩

/-! ## The worked parses (R374) -/

/-- The salt test takes 16 characters of the alphabet as they are. -/
theorem checkSalt_of_alpha {salt : Bytes} (hlength : salt.length ≤ 16) (halpha : ∀ c ∈ salt, c ∈ alpha) (alg : Byte)
    (rounds : Nat) (explicit : Bool) : checkSalt alg rounds explicit salt = .ok ⟨alg, rounds, salt, explicit⟩ := by
  have htake : salt.take 16 = salt := List.take_of_length_le hlength
  rw [checkSalt_ok, htake]
  exact ⟨halpha, rfl⟩

/-- Settles O58: two rows without a salt ask the generator; the other rows and the outputs are evaluated. -/
theorem workedParses : Obligations.WorkedParses := by
  intro generate hgenerate
  obtain ⟨hlength, halpha⟩ := hgenerate 16
  have generated := checkSalt_of_alpha hlength.le halpha
  refine ⟨rfl, rfl, rfl, rfl, rfl, rfl, rfl, rfl, rfl, rfl, rfl, ?noSegment, ?roundsSegment, rfl, rfl, rfl, rfl, rfl⟩
  case noSegment => exact (parse_of_algorithm (a := ascii "5") rfl rfl).trans (generated 5 5000 false)
  case roundsSegment =>
    have hparse := parse_of_rounds (generate := generate) (mcf := ascii "$5$rounds=2000") (a := ascii "5") rfl rfl rfl
    exact hparse.trans ((withRounds_of_value (v := 2000) rfl).trans (generated 5 2000 true))

end Sys2Proof.Machine
end

section
/-! SUPPORT. The MCF prefixes that `hash` writes (46_parser_facade.md R365, R366), read back by the parser (R352 to R361):
the segments between the `$` signs, and the decimal digits of the rounds. -/
namespace Sys2Proof.Machine

/-! ## Segments (R352) -/

theorem splitDollar_ne_nil (l : Bytes) : splitDollar l ≠ [] := by
  cases l with
  | nil => simp [splitDollar]
  | cons c cs =>
    unfold splitDollar
    split
    · simp
    · split <;> simp

theorem splitDollar_cons_of_ne {c : Byte} (hc : c ≠ dollar) {cs piece : Bytes} {rest : List Bytes}
    (h : splitDollar cs = piece :: rest) : splitDollar (c :: cs) = (c :: piece) :: rest := by
  simp [splitDollar, h, hc]

theorem splitDollar_dollar_cons (cs : Bytes) : splitDollar (dollar :: cs) = [] :: splitDollar cs := by
  obtain ⟨piece, rest, h⟩ := List.exists_cons_of_ne_nil (splitDollar_ne_nil cs)
  simp [splitDollar, h]

theorem splitDollar_of_not_mem {a : Bytes} (ha : dollar ∉ a) : splitDollar a = [a] := by
  induction a with
  | nil => rfl
  | cons c a ih =>
    rw [List.mem_cons, not_or] at ha
    exact splitDollar_cons_of_ne (Ne.symm ha.1) (ih ha.2)

theorem splitDollar_append_dollar {a : Bytes} (ha : dollar ∉ a) (b : Bytes) :
    splitDollar (a ++ dollar :: b) = a :: splitDollar b := by
  induction a with
  | nil => exact splitDollar_dollar_cons b
  | cons c a ih =>
    rw [List.mem_cons, not_or] at ha
    exact splitDollar_cons_of_ne (Ne.symm ha.1) (ih ha.2)

theorem segments_dollar_cons (b : Bytes) : segments (dollar :: b) = segments b := by
  simp [segments, splitDollar_dollar_cons]

theorem segments_of_not_mem {a : Bytes} (hne : a ≠ []) (ha : dollar ∉ a) : segments a = [a] := by
  simp [segments, splitDollar_of_not_mem ha, hne]

theorem segments_append_dollar {a : Bytes} (hne : a ≠ []) (ha : dollar ∉ a) (b : Bytes) :
    segments (a ++ dollar :: b) = a :: segments b := by
  simp [segments, splitDollar_append_dollar ha, hne]

/-- A text without `$` behind the last `$` is cut off. -/
theorem beforeLastDollar_append_dollar (a : Bytes) {b : Bytes} (hb : dollar ∉ b) :
    beforeLastDollar (a ++ dollar :: b) = a := by
  induction a with
  | nil => simp [beforeLastDollar, hb]
  | cons c a ih => simp [beforeLastDollar, ih]

theorem dollar_not_mem_of_alpha {l : Bytes} (h : ∀ c ∈ l, c ∈ alpha) : dollar ∉ l :=
  fun hd => absurd (h _ hd) (by decide)

/-! ## Decimal digits (R355, R365) -/

/-- One more decimal digit behind a number, as `decimalValue` reads it. -/
def pushDigit (acc : Nat) (c : Byte) : Nat := acc * 10 + (c.toNat - 0x30)

theorem decimalValue_of_digits {l : Bytes} (hne : l ≠ []) (hdigits : ∀ c ∈ l, isDigit c = true) :
    decimalValue l = some (l.foldl pushDigit 0) := by
  have hall : l.all isDigit = true := List.all_eq_true.2 hdigits
  have hempty : l.isEmpty = false := by simpa using hne
  rw [decimalValue, hall, hempty]
  rfl

theorem isDigit_iff {c : Byte} : isDigit c = true ↔ 0x30 ≤ c.toNat ∧ c.toNat ≤ 0x39 := by
  simp [isDigit]

theorem dollar_not_mem_of_digits {l : Bytes} (h : ∀ c ∈ l, isDigit c = true) : dollar ∉ l :=
  fun hd => absurd (h _ hd) (by decide)

theorem digit_toNat {d : Nat} (hd : d < 10) : (BitVec.ofNat 8 (0x30 + d)).toNat = 0x30 + d := by
  rw [BitVec.toNat_ofNat]
  omega

theorem isDigit_digit {d : Nat} (hd : d < 10) : isDigit (BitVec.ofNat 8 (0x30 + d)) = true := by
  rw [isDigit_iff, digit_toNat hd]
  omega

theorem pushDigit_digit (acc : Nat) {d : Nat} (hd : d < 10) :
    pushDigit acc (BitVec.ofNat 8 (0x30 + d)) = acc * 10 + d := by
  rw [pushDigit, digit_toNat hd, Nat.add_sub_cancel_left]

theorem decimalDigitsFrom_of_lt {fuel n : Nat} (h : n < 10) :
    decimalDigitsFrom (fuel + 1) n = [BitVec.ofNat 8 (0x30 + n)] :=
  if_pos h

theorem decimalDigitsFrom_of_le {fuel n : Nat} (h : 10 ≤ n) :
    decimalDigitsFrom (fuel + 1) n = decimalDigitsFrom fuel (n / 10) ++ [BitVec.ofNat 8 (0x30 + n % 10)] :=
  if_neg (Nat.not_lt.2 h)

/-- With enough fuel the digits are digits, at least one, and spell the number. -/
theorem decimalDigitsFrom_spells {fuel n : Nat} (hfuel : n < fuel) :
    decimalDigitsFrom fuel n ≠ [] ∧ (∀ c ∈ decimalDigitsFrom fuel n, isDigit c = true) ∧
      (decimalDigitsFrom fuel n).foldl pushDigit 0 = n := by
  induction fuel generalizing n with
  | zero => omega
  | succ fuel ih =>
    by_cases h : n < 10
    · rw [decimalDigitsFrom_of_lt h]
      refine ⟨by simp, by simpa using isDigit_digit h, ?_⟩
      rw [List.foldl_cons, List.foldl_nil, pushDigit_digit _ h]
      omega
    · obtain ⟨-, hdigits, hvalue⟩ := ih (n := n / 10) (by omega)
      have hlast : n % 10 < 10 := Nat.mod_lt _ (by decide)
      rw [decimalDigitsFrom_of_le (by omega)]
      refine ⟨by simp, List.forall_mem_append.2 ⟨hdigits, by simpa using isDigit_digit hlast⟩, ?_⟩
      rw [List.foldl_append, hvalue, List.foldl_cons, List.foldl_nil, pushDigit_digit _ hlast]
      omega

theorem isDigit_of_mem_decimalDigits {n : Nat} : ∀ c ∈ decimalDigits n, isDigit c = true :=
  (decimalDigitsFrom_spells (Nat.lt_succ_self n)).2.1

/-- The digits that `hash` writes are read back as the number. -/
theorem decimalValue_decimalDigits (n : Nat) : decimalValue (decimalDigits n) = some n := by
  obtain ⟨hne, hdigits, hvalue⟩ := decimalDigitsFrom_spells (Nat.lt_succ_self n)
  exact (decimalValue_of_digits hne hdigits).trans (congrArg some hvalue)

/-! ## The prefixes of parameters (R365) -/

/-- The segment that names the algorithm. -/
def algorithmSegment (alg : Byte) : Bytes := [BitVec.ofNat 8 (0x30 + alg.toNat)]

theorem parseAlgorithm_algorithmSegment {alg : Byte} (halg : alg = 5 ∨ alg = 6) :
    parseAlgorithm (algorithmSegment alg) = some alg := by
  obtain rfl | rfl := halg <;> rfl

theorem dollar_not_mem_algorithmSegment {alg : Byte} (halg : alg = 5 ∨ alg = 6) : dollar ∉ algorithmSegment alg := by
  obtain rfl | rfl := halg <;> decide

/-- The segment that sets the rounds. -/
def roundsSegment (rounds : Nat) : Bytes := roundsMark ++ decimalDigits rounds

theorem isRoundsSegment_roundsSegment (rounds : Nat) : isRoundsSegment (roundsSegment rounds) = true := rfl

theorem roundsSegment_ne_nil (rounds : Nat) : roundsSegment rounds ≠ [] := List.cons_ne_nil _ _

theorem dollar_not_mem_roundsSegment (rounds : Nat) : dollar ∉ roundsSegment rounds := by
  rw [roundsSegment, List.mem_append, not_or]
  exact ⟨by decide, dollar_not_mem_of_digits isDigit_of_mem_decimalDigits⟩

theorem withRounds_roundsSegment (alg : Byte) (rounds : Nat) (salt : Bytes) :
    withRounds alg (roundsSegment rounds) salt = checkSalt alg (clampRounds rounds) true salt :=
  withRounds_of_value (decimalValue_decimalDigits rounds)

theorem outputPrefix_of_clause {p : Parameters} (h : p.hasRoundsClause = true) :
    p.outputPrefix = dollar :: (algorithmSegment p.alg ++
      dollar :: (roundsSegment p.rounds ++ dollar :: p.salt)) := by
  simp [Parameters.outputPrefix, algorithmSegment, roundsSegment, h]

theorem outputPrefix_of_noClause {p : Parameters} (h : p.hasRoundsClause = false) :
    p.outputPrefix = dollar :: (algorithmSegment p.alg ++ dollar :: p.salt) := by
  simp [Parameters.outputPrefix, algorithmSegment, h]

theorem rounds_eq_of_noClause {p : Parameters} (h : p.hasRoundsClause = false) : p.rounds = 5000 := by
  rw [Parameters.hasRoundsClause, Bool.or_eq_false_iff, bne_eq_false_iff_eq] at h
  exact h.2

/-- The `=` of a rounds segment is no character of the alphabet. -/
theorem isRoundsSegment_of_alpha {salt : Bytes} (h : ∀ c ∈ salt, c ∈ alpha) : isRoundsSegment salt = false := by
  rw [isRoundsSegment, beq_eq_false_iff_ne]
  intro hmark
  have hequals : (0x3D : Byte) ∈ salt.take 7 := hmark ▸ by decide
  exact absurd (h _ (List.mem_of_mem_take hequals)) (by decide)

theorem clampRounds_of_inRange {p : Parameters} (h : p.InRange) : clampRounds p.rounds = p.rounds := by
  rw [clampRounds, max_eq_left h.rounds_ge, min_eq_left h.rounds_le]

/-- The parser reads back the parameters that `hash` writes, the rounds explicit when they are written out. An empty salt is
not read back (R369). -/
theorem parse_outputPrefix (generate : Nat → Bytes) {p : Parameters} (halg : p.alg = 5 ∨ p.alg = 6) (h : p.InRange)
    (hsalt : p.salt ≠ []) : parse generate p.outputPrefix = .ok { p with explicit := p.hasRoundsClause } := by
  have halgorithm := parseAlgorithm_algorithmSegment halg
  have hsaltSegments := segments_of_not_mem hsalt (dollar_not_mem_of_alpha h.salt_alpha)
  have hsegments (b : Bytes) : segments (dollar :: (algorithmSegment p.alg ++ dollar :: b)) =
      algorithmSegment p.alg :: segments b :=
    (segments_dollar_cons _).trans
      (segments_append_dollar (List.cons_ne_nil _ _) (dollar_not_mem_algorithmSegment halg) b)
  cases hclause : p.hasRoundsClause with
  | false =>
    have hrounds := rounds_eq_of_noClause hclause
    rw [outputPrefix_of_noClause hclause, parse_of_salt halgorithm (x := p.salt) (by rw [hsegments, hsaltSegments])
      (isRoundsSegment_of_alpha h.salt_alpha), checkSalt_of_alpha h.salt_length h.salt_alpha, ← hrounds]
  | true =>
    have hroundsSegments :=
      segments_append_dollar (roundsSegment_ne_nil p.rounds) (dollar_not_mem_roundsSegment p.rounds) p.salt
    rw [outputPrefix_of_clause hclause, parse_of_rounds_salt halgorithm (x := roundsSegment p.rounds) (y := p.salt)
      (by rw [hsegments, hroundsSegments, hsaltSegments]) (isRoundsSegment_roundsSegment p.rounds),
      withRounds_roundsSegment, clampRounds_of_inRange h, checkSalt_of_alpha h.salt_length h.salt_alpha]

/-- Asking for the rounds clause where it is written anyway changes nothing. -/
theorem outputPrefix_explicit (p : Parameters) :
    { p with explicit := p.hasRoundsClause }.outputPrefix = p.outputPrefix := by
  have hclause : { p with explicit := p.hasRoundsClause }.hasRoundsClause = p.hasRoundsClause := by
    simp [Parameters.hasRoundsClause]
  rw [Parameters.outputPrefix, hclause, Parameters.outputPrefix]

/-! ## The comparison of strings (R368) -/

theorem foldl_orXor_eq_zero {l : List (Byte × Byte)} {acc : Byte} :
    l.foldl (fun acc p => acc ||| (p.1 ^^^ p.2)) acc = 0 ↔ acc = 0 ∧ ∀ p ∈ l, p.1 = p.2 := by
  induction l generalizing acc with
  | nil => simp
  | cons p l ih =>
    rw [List.foldl_cons, ih, List.forall_mem_cons, ← and_assoc]
    exact and_congr_left' (BitVec.or_eq_zero_iff.trans (and_congr_right' BitVec.xor_eq_zero_iff))

/-- The comparison that visits every position tests equality. -/
theorem sameBytes_eq (x y : Bytes) : sameBytes x y = decide (x = y) := by
  have hpairs : x = y ↔ x.length = y.length ∧ ∀ p ∈ x.zip y, p.1 = p.2 := by
    rw [← List.forall₂_eq_eq_eq, List.forall₂_iff_zip, Prod.forall]
  rw [Bool.eq_iff_iff, decide_eq_true_iff, hpairs, sameBytes, Bool.and_eq_true, beq_iff_eq, beq_iff_eq,
    foldl_orXor_eq_zero, and_iff_right rfl]

end Sys2Proof.Machine
end

section
/-! SUPPORT. The protocol of 45_host_commands.md R337 in a number of steps: a block answers a job within `Job.submitSteps`
and one step for each turn that reads the result. -/
namespace Sys2Proof.Machine

/-! ## One step for each access -/

/-- The turn is a host-port access (R320). -/
def IsAccess (a : Turn) : Prop := ∃ i : Instr, i.wf = true ∧ i.format = .ha ∧ a = turnOf i

theorem wrTurn_isAccess (o : Obj) (k v : Nat) : IsAccess (wrTurn o k v) := ⟨_, rfl, rfl, rfl⟩

theorem rdTurn_isAccess (o : Obj) (k : Nat) : IsAccess (rdTurn o k) := ⟨_, rfl, rfl, rfl⟩

theorem wrBytes_isAccess (o : Obj) (k : Nat) (bytes : Bytes) : ∀ a ∈ wrBytes o k bytes, IsAccess a := by
  induction bytes generalizing k with
  | nil => exact List.forall_mem_nil _
  | cons v bytes ih => exact List.forall_mem_cons.2 ⟨wrTurn_isAccess _ _ _, ih (k + 1)⟩

theorem submitJob_isAccess (j : Job) : ∀ a ∈ submitJob j, IsAccess a := by
  simp only [submitJob, loadSalt, loadPw, goTurn, List.forall_mem_cons, List.forall_mem_append]
  exact ⟨wrTurn_isAccess _ _ _, wrTurn_isAccess _ _ _,
    ⟨⟨wrBytes_isAccess _ _ _, wrTurn_isAccess _ _ _, List.forall_mem_nil _⟩, wrBytes_isAccess _ _ _,
      wrTurn_isAccess _ _ _, List.forall_mem_nil _⟩, wrTurn_isAccess _ _ _, List.forall_mem_nil _⟩

theorem collectResult_isAccess (alg : Byte) : ∀ a ∈ collectResult alg, IsAccess a := by
  simp only [collectResult, rdDigest, rdEnc, List.forall_mem_append, List.forall_mem_map, List.forall_mem_cons]
  exact ⟨⟨fun _ _ => rdTurn_isAccess _ _, fun _ _ => rdTurn_isAccess _ _⟩, wrTurn_isAccess _ _ _,
    List.forall_mem_nil _⟩

theorem collectError_isAccess : ∀ a ∈ collectError, IsAccess a := by
  simp only [collectError, List.forall_mem_cons]
  exact ⟨rdTurn_isAccess _ _, wrTurn_isAccess _ _ _, List.forall_mem_nil _⟩

theorem unlessBusy_withTurns {f : State → State} {turns : List Turn}
    (hf : ∀ s : State, f (s.withTurns turns) = (f s).withTurns turns) (s : State) :
    unlessBusy f (s.withTurns turns) = (unlessBusy f s).withTurns turns := by
  cases hb : s.busy with
  | true => rw [unlessBusy_of_busy hb, unlessBusy_of_busy (s := s.withTurns turns) hb]
  | false => rw [unlessBusy_of_not_busy hb, unlessBusy_of_not_busy (s := s.withTurns turns) hb, hf]

/-- An access is answered in one step, whatever turns come after it. -/
theorem step_of_isAccess {a : Turn} (h : IsAccess a) (s : State) :
    ∃ t : State, ∀ rest, step (s.withTurns (a :: rest)) = .next (t.withTurns rest) := by
  obtain ⟨i, hwf, hformat, rfl⟩ := h
  cases i with
  | rd o idx => exact ⟨reply (hostReadValue o idx s) s, fun rest => step_turnOf hwf s rest⟩
  | wr o idx v =>
    exact ⟨unlessBusy (hostWriteObj o idx v) s, fun rest => (step_turnOf hwf s rest).trans
      (congrArg _ (unlessBusy_withTurns (hostWriteObj_withTurns o idx v rest) s))⟩
  | _ => cases hformat

/-- A turn that stops the machine: a reserved micro-operation byte is presented (30_encoding.md R102). Behind a list of turns
it tells how many steps they take. -/
def stopTurn : Turn := .word .u 0xFF

theorem step_stopTurn (s : State) (rest : List Turn) :
    step (s.withTurns (stopTurn :: rest)) = .refused (.illegalEncoding (.reservedMicroOp 0xFF)) :=
  step_of_fetch_illegal (fetch_of_word rfl) (by decide)

/-- What accesses reach, they reach in one step each. -/
theorem Reaches.run_accesses {turns : List Turn} (hturns : ∀ a ∈ turns, IsAccess a) {s t : State}
    (h : Reaches (s.withTurns (turns ++ [stopTurn])) (t.withTurns [stopTurn])) (rest : List Turn) :
    Sys2Proof.core.run turns.length (s.withTurns (turns ++ rest)) = .next (t.withTurns rest) := by
  obtain ⟨n, hn⟩ := h
  induction turns generalizing s n with
  | nil =>
    cases n with
    | zero =>
      have hst : s.withTurns [stopTurn] = t.withTurns [stopTurn] := Host.Outcome.next.inj hn
      exact congrArg (fun u => Host.Outcome.next (u.withTurns rest)) hst
    | succ n =>
      rw [run_succ, List.nil_append, step_stopTurn] at hn
      cases hn
  | cons a turns ih =>
    obtain ⟨ha, hturns⟩ := List.forall_mem_cons.1 hturns
    obtain ⟨u, hu⟩ := step_of_isAccess ha s
    cases n with
    | zero =>
      have hlength := congrArg (fun v => v.agenda.length) (Host.Outcome.next.inj hn)
      simp [State.withTurns] at hlength
    | succ n =>
      rw [List.cons_append, run_succ_of_next n (hu _)] at hn
      rw [List.length_cons, List.cons_append, run_succ_of_next _ (hu _)]
      exact ih hturns n hn

/-! ## Terminal states -/

/-- Steps left over in a terminal phase change nothing (60_exceptions.md R415). -/
theorem run_of_le {s t : State} {k n : Nat} (hk : Sys2Proof.core.run k s = .next t) (hb : t.busy = false)
    (ha : t.agenda = []) (hkn : k ≤ n) : Sys2Proof.core.run n s = .next t := by
  rw [← Nat.add_sub_cancel' hkn, run_add k _ hk]
  exact run_of_terminal _ (busy_eq_false_iff.1 hb) ha

/-! ## A job from CHK to DONE (70_reset_and_hazards.md R445) -/

/-- A host that polls gets to see the end of the job after no more steps than the sequencer takes. -/
theorem run_poll {s t : State} {n : Nat} (h : Sys2Proof.core.run n s = .next t) (ha : s.agenda = []) (rest : List Turn) :
    ∃ k ≤ n, Sys2Proof.core.run k (s.withTurns (.poll :: rest)) = .next (t.withTurns (.poll :: rest)) := by
  induction n generalizing s with
  | zero =>
    cases h
    exact ⟨0, le_rfl, rfl⟩
  | succ n ih =>
    cases hs : s.busy with
    | false =>
      rw [run_of_terminal (n + 1) (busy_eq_false_iff.1 hs) ha] at h
      cases h
      exact ⟨0, Nat.zero_le _, rfl⟩
    | true =>
      rw [run_succ] at h
      obtain ⟨u, hstep, hu⟩ := andThen_next.1 h
      rw [step_of_agenda_nil ha] at hstep
      have hua : u.agenda = s.agenda :=
        congrArg (fun side => side.1.agenda) (exec_phaseInstr_keepsHostSide s.ph s u hstep)
      have hpoll := (step_of_fetch_sequencerWord (fetch_of_poll_busy (s := s.withTurns (.poll :: rest)) rfl hs)).trans
        (exec_phaseInstr_withTurns (s := s) _ hs hstep)
      obtain ⟨k, hk, hrun⟩ := ih hu (hua.trans ha)
      exact ⟨k + 1, Nat.succ_le_succ hk, (run_succ_of_next k hpoll).trans hrun⟩

/-- A bound on R445's number of steps that does not depend on the digests. -/
def Job.stepBound (j : Job) : Nat := 314 + 3 * j.pw.length + 6 * j.rounds

theorem steps_le_stepBound (j : Job) : j.setupSteps + ((6 * j.rounds + 1) + groupCount j.alg) ≤ j.stepBound := by
  have hcopies : j.pw.length / digestSize j.alg ≤ j.pw.length := Nat.div_le_self _ _
  have hbits : j.pw.length.size ≤ j.pw.length := Nat.size_le.2 Nat.lt_two_pow_self
  have hbyte := (j.digestA.getD 0 0).isLt
  have hgroups := groupCount_le j.alg
  rw [Job.setupSteps, Job.saltCount, Job.stepBound]
  omega

/-- A job without an error is finished within the bound: set-up, round loop, encoder. -/
theorem run_finished {s : State} (hph : s.ph = .chk) (ha : s.agenda = []) (hjob : jobError s = none) :
    ∃ n ≤ s.job.stepBound, ∃ t, Sys2Proof.core.run n s = .next t ∧ s.job.FinishedIn t ∧ t.pwMax = s.pwMax ∧
      t.replies = s.replies := by
  obtain ⟨halg, -, -⟩ := jobError_none.1 hjob
  obtain ⟨m, hrounds, hdigest, -⟩ := roundLoopComputesTheChain s.setUp rfl ha rfl rfl hjob
  obtain ⟨e, hencode, htext, -⟩ :=
    encoderWritesTheText { s.setUp with bufC := m, i := s.rounds, ph := .e0 } rfl ha rfl rfl halg
  have hm : m.readBytes 0 (digestSize s.alg) = s.job.digest := hdigest.trans (chainFrom_setUp s)
  exact ⟨_, steps_le_stepBound s.job, _, run_trans (run_setup hph ha hjob) (run_trans hrounds hencode),
    { done := rfl, digest := hm, text := hm ▸ htext }, rfl, rfl⟩

/-! ## The whole protocol -/

theorem step_waitTurn {s : State} {rest : List Turn} (hb : s.busy = false) :
    step (s.withTurns (waitTurn :: rest)) = .next ((s.heard [s.status.setWidth 32]).withTurns rest) :=
  step_of_fetch (fetch_of_poll_not_busy (s := s.withTurns (waitTurn :: rest)) rfl hb)
    (decode_word_of_wf (i := .rd .status 0) rfl)

/-- Steps (1) to (4): when the submitted job ends within the bound, `Job.submitSteps` are enough for the host to see it. -/
theorem runTurns_submitSteps {s : State} (j : Job) (hb : s.busy = false) (hmax : s.pwMax ≤ 2 ^ 30) :
    ∃ salt pw,
      (∀ n t, n ≤ j.stepBound →
        Sys2Proof.core.run n (((s.heard [s.status.setWidth 32]).submitted j salt pw).withTurns []) = .next t →
        t.busy = false →
        runTurns j.submitSteps (submitProtocol j) s = .next ((t.heard [t.status.setWidth 32]).withTurns [])) ∧
      (j.salt.length ≤ 16 → salt = s.salt.writeBytes 0 j.salt) ∧
      (j.pw.length ≤ s.pwMax → pw = s.pw.writeBytes 0 j.pw) := by
  obtain ⟨salt, pw, hsubmit, hsalt, hpw⟩ :=
    reaches_submitted (s := s.heard [s.status.setWidth 32]) j [stopTurn] hb hmax
  refine ⟨salt, pw, fun n t hn ht htb => ?_, hsalt, hpw⟩
  obtain ⟨k, hk, hpoll⟩ := run_poll ht rfl []
  have hlast := run_trans hpoll (run_one (step_waitTurn htb))
  have hrun := run_trans (run_one (step_waitTurn (s := s) hb))
    (run_trans (hsubmit.run_accesses (submitJob_isAccess j) [waitTurn]) hlast)
  refine run_of_le hrun htb rfl ?_
  have hsteps : j.submitSteps = (submitJob j).length + 2 + j.stepBound := by
    simp [Job.submitSteps, submitProtocol, Job.stepBound]
  omega

/-- After CLEAR the block has its reset values and the next turns are to come. -/
theorem reaches_cleared_append {s : State} (hb : s.busy = false) (rest : List Turn) :
    Reaches (s.withTurns (wrTurn .ctrl 0 0x02 :: rest)) ((clearedBlock s.pwMax s.replies).withTurns rest) :=
  reaches_wrTurn hb (t := toReset s) rfl

/-- Steps (5) and (6) after DONE take one step for each turn. -/
theorem runTurns_collectResult {s : State} {j : Job} (h : j.FinishedIn s) :
    runTurns (collectResult j.alg).length (collectResult j.alg) s =
      .next (clearedBlock s.pwMax (s.replies ++ (j.digest ++ encodeText j.alg j.digest).map (BitVec.setWidth 32))) := by
  have hb : s.busy = false := busy_eq_false_iff.2 (.inr (.inl h.done))
  have hdigest := reaches_rdBytes (rest := rdEnc j.alg ++ [wrTurn .ctrl 0 0x02, stopTurn]) digest_shows h.done
    (digestSize_le j.alg) (show 64 ≤ 2 ^ 32 by decide)
  have htext := reaches_rdBytes (s := s.heard ((s.bufC.readBytes 0 (digestSize j.alg)).map (BitVec.setWidth 32)))
    (rest := [wrTurn .ctrl 0 0x02, stopTurn]) enc_shows h.done (textLength_le j.alg) (show 86 ≤ 2 ^ 32 by decide)
  have hreaches := hdigest.trans (htext.trans (reaches_cleared_append (by exact hb) [stopTurn]))
  have happend : (List.range (digestSize j.alg)).map (rdTurn .digest) ++
      (rdEnc j.alg ++ [wrTurn .ctrl 0 0x02, stopTurn]) = collectResult j.alg ++ [stopTurn] := by
    simp [collectResult, rdDigest]
  rw [happend] at hreaches
  have hrun := hreaches.run_accesses (collectResult_isAccess j.alg) []
  rw [List.append_nil] at hrun
  rw [List.map_append, ← h.text, ← h.digest, ← List.append_assoc s.replies]
  exact hrun

/-- Steps (5) and (6) after ERROR take one step for each turn. -/
theorem runTurns_collectError {s : State} (hb : s.busy = false) :
    runTurns collectError.length collectError s =
      .next (clearedBlock s.pwMax (s.replies ++ [s.err.setWidth 32])) := by
  have hreaches := (reaches_rdTurn .err 0).trans
    (reaches_cleared_append (s := s.heard [s.err.setWidth 32]) hb [stopTurn])
  exact hreaches.run_accesses (turns := collectError) collectError_isAccess []

/-- What the host has heard last decides whether it reads the result or the error. -/
theorem serveJob_of_submitted {s t : State} {j : Job} {v : Word32}
    (h : runTurns j.submitSteps (submitProtocol j) s = .next ((t.heard [v]).withTurns [])) {rest : List Turn}
    (hrest : (if v = 2 then collectResult j.alg else collectError) = rest) :
    serveJob j s = runTurns rest.length rest ((t.heard [v]).withTurns []) := by
  have hlast : ((t.heard [v]).withTurns []).lastReply = v := by simp [State.lastReply, State.heard, State.withTurns]
  rw [serveJob, h, andThen_next_left, hlast, ← hrest]

section
variable {s : State} {j : Job} (hb : s.busy = false) (hmax : s.pwMax ≤ 2 ^ 30)
include hb hmax

/-- A job that fits is served with its digest and its text. -/
theorem serveJob_of_fits (halg : j.alg = 5 ∨ j.alg = 6) (hrounds : j.rounds < 2 ^ 32) (hsalt : j.salt.length ≤ 16)
    (hpw : j.pw.length ≤ s.pwMax) :
    serveJob j s = .next (clearedBlock s.pwMax (s.replies ++ [s.status.setWidth 32, 2] ++
      (j.digest ++ encodeText j.alg j.digest).map (BitVec.setWidth 32))) := by
  obtain ⟨salt, pw, hsubmit, hsaltFits, hpwFits⟩ := runTurns_submitSteps j hb hmax
  have hjob : (((s.heard [s.status.setWidth 32]).submitted j salt pw).withTurns []).job = j := by
    rw [hsaltFits hsalt, hpwFits hpw]
    exact job_submitted _ hrounds hsalt (hpw.trans hmax)
  obtain ⟨n, hn, t, ht, hfinished, hpwMax, hreplies⟩ :=
    run_finished (s := ((s.heard [s.status.setWidth 32]).submitted j salt pw).withTurns []) rfl rfl
      (jobError_submitted halg hsalt hpw salt pw)
  rw [hjob] at hn hfinished
  have hstatus : t.status.setWidth 32 = (2 : Word32) := by rw [status_eq_two_iff.2 hfinished.done]; rfl
  have hrun := hsubmit n t hn ht (busy_eq_false_iff.2 (.inr (.inl hfinished.done)))
  have hcollect := runTurns_collectResult (s := (t.heard [2]).withTurns []) { hfinished with }
  have hheard : t.replies ++ [2] = s.replies ++ [s.status.setWidth 32, 2] := by
    rw [hreplies]
    exact List.append_assoc ..
  have hend : ((t.heard [2]).withTurns []).pwMax = s.pwMax := hpwMax
  rw [hstatus] at hrun
  rw [hend] at hcollect
  rw [serveJob_of_submitted hrun (if_pos rfl), ← hheard]
  exact hcollect

/-- A job that CHK refuses is served with its code. -/
theorem serveJob_of_error {code : Byte} (herror : ∀ salt pw, jobError (s.submitted j salt pw) = some code) :
    serveJob j s = .next (clearedBlock s.pwMax (s.replies ++ [s.status.setWidth 32, 3, code.setWidth 32])) := by
  obtain ⟨salt, pw, hsubmit, -, -⟩ := runTurns_submitSteps j hb hmax
  have hchk : step (((s.heard [s.status.setWidth 32]).submitted j salt pw).withTurns []) =
      .next (raiseError code _) :=
    (step_of_ph rfl rfl).trans (checkJob_next.2 (.inl ⟨code, herror salt pw, rfl⟩))
  have hbound : 1 ≤ j.stepBound := by unfold Job.stepBound; omega
  have hrun := hsubmit 1 _ hbound (run_one hchk) rfl
  have hheard : s.replies ++ [s.status.setWidth 32, 3, code.setWidth 32] =
      s.replies ++ [s.status.setWidth 32] ++ [3] ++ [code.setWidth 32] := by simp
  rw [serveJob_of_submitted (v := 3) hrun (if_neg (by decide)), hheard]
  exact runTurns_collectError (s := (State.heard (raiseError code _) [3]).withTurns []) rfl

end

end Sys2Proof.Machine
end

section
/-! SUPPORT. `hash` and `verify` (46_parser_facade.md R363 to R369) over the protocol: what a block after reset answers to a
job, and what the host makes of it. -/
namespace Sys2Proof.Machine

/-! ## A job on a block after reset -/

theorem digest_length (j : Job) : j.digest.length = digestSize j.alg := by
  unfold Job.digest
  cases j.rounds with
  | zero => exact hashBytes_length ..
  | succ n => exact hashBytes_length ..

theorem setWidth_setWidth_byte (v : Byte) : (v.setWidth 32).setWidth 8 = v := by
  bv_omega

/-- The host gets back the bytes that it read as words. -/
theorem map_setWidth_setWidth (l : Bytes) : (l.map (BitVec.setWidth 32)).map (BitVec.setWidth 8) = l := by
  rw [List.map_map]
  exact List.map_id'' setWidth_setWidth_byte l

theorem jobResult_of_done (alg : Byte) (before : Word32) (bytes : Bytes) :
    jobResult alg (before :: 2 :: bytes.map (BitVec.setWidth 32)) =
      .done (bytes.take (digestSize alg)) (bytes.drop (digestSize alg)) := by
  simp only [jobResult, map_setWidth_setWidth, if_true]

theorem jobResult_of_error (alg : Byte) (before : Word32) (code : Byte) :
    jobResult alg [before, 3, code.setWidth 32] = .failed code :=
  congrArg JobResult.failed (setWidth_setWidth_byte code)

section
variable {pwMax : Nat} (hmax : pwMax ≤ 2 ^ 30) {j : Job}
include hmax

theorem runJob_of_fits (halg : j.alg = 5 ∨ j.alg = 6) (hrounds : j.rounds < 2 ^ 32) (hsalt : j.salt.length ≤ 16)
    (hpw : j.pw.length ≤ pwMax) : runJob pwMax j = .done j.digest (encodeText j.alg j.digest) := by
  rw [runJob, serveJob_of_fits (s := { State.reset with pwMax := pwMax }) rfl hmax halg hrounds hsalt hpw]
  refine (jobResult_of_done j.alg _ _).trans ?_
  rw [← digest_length j, List.take_left, List.drop_left]

theorem runJob_of_error {code : Byte}
    (herror : ∀ salt pw, jobError (State.submitted { State.reset with pwMax := pwMax } j salt pw) = some code) :
    runJob pwMax j = .failed code := by
  rw [runJob, serveJob_of_error (s := { State.reset with pwMax := pwMax }) rfl hmax herror]
  exact jobResult_of_error j.alg _ code

theorem runJob_of_unsupported (h5 : j.alg ≠ 5) (h6 : j.alg ≠ 6) : runJob pwMax j = .failed 0x01 :=
  runJob_of_error hmax fun _ _ => jobError_of_unsupported ⟨h5, h6⟩

theorem runJob_of_tooLong (halg : j.alg = 5 ∨ j.alg = 6) (hpw : pwMax < j.pw.length) : runJob pwMax j = .failed 0x02 := by
  refine runJob_of_error hmax fun salt pw => jobError_of_badLength halg (.inr ?_)
  rw [submitted_plen_toNat]
  show pwMax < _
  omega

end

/-! ## `hash` -/

theorem inRange_of_parameters {h : HostSide} {source : Source} {p : Parameters} (hp : h.parameters source = .ok p) :
    p.InRange := by
  cases source with
  | mcf text =>
    obtain ⟨_, -, -, hrange⟩ := inRange_of_parse hp
    exact hrange
  | default => exact (inRange_of_default hp).2

theorem hashPassword_of_error {h : HostSide} (pw : Bytes) {source : Source} {e : ParseError}
    (he : h.parameters source = .error e) : hashPassword h pw source = .error (.parser e) := by
  rw [hashPassword, he]

section
variable {h : HostSide} {pw : Bytes} {source : Source} {p : Parameters} (hp : h.parameters source = .ok p)
include hp

theorem hashPassword_of_failed {code : Byte} (hjob : runJob h.pwMax (p.job pw) = .failed code) :
    hashPassword h pw source = .error (.engine code) := by
  rw [hashPassword, hp]
  simp [hjob]

/-- Parameters of a supported algorithm and a password within `PW_MAX` give the assembled string. -/
theorem hashPassword_of_fits (hmax : h.pwMax ≤ 2 ^ 30) (halg : p.alg = 5 ∨ p.alg = 6) (hpw : pw.length ≤ h.pwMax) :
    hashPassword h pw source = .ok (p.mcfString (encodeText p.alg (p.job pw).digest)) := by
  have hrange := inRange_of_parameters hp
  have hrounds : p.rounds < 2 ^ 32 := hrange.rounds_le.trans_lt (by decide)
  have hjob := runJob_of_fits (j := p.job pw) hmax halg hrounds hrange.salt_length hpw
  rw [hashPassword, hp]
  simp only [hjob]
  rfl

end

/-! ## `verify` -/

theorem verifyPassword_of_ok {h : HostSide} {pw stored m : Bytes}
    (hm : hashPassword h pw (.mcf (beforeLastDollar stored)) = .ok m) :
    verifyPassword h pw stored = .ok (decide (m = stored)) := by
  rw [verifyPassword, hm, ← sameBytes_eq]

theorem verifyPassword_of_error {h : HostSide} {pw stored : Bytes} {e : HashError}
    (he : hashPassword h pw (.mcf (beforeLastDollar stored)) = .error e) : verifyPassword h pw stored = .error e := by
  rw [verifyPassword, he]

theorem beforeLastDollar_mcfString (p : Parameters) (alg : Byte) (d : Bytes) :
    beforeLastDollar (p.mcfString (encodeText alg d)) = p.outputPrefix :=
  beforeLastDollar_append_dollar _ (dollar_not_mem_of_alpha fun _ => mem_alpha_of_mem_encodeText)

theorem mcfString_explicit (p : Parameters) (text : Bytes) :
    { p with explicit := p.hasRoundsClause }.mcfString text = p.mcfString text :=
  congrArg (fun pre => pre ++ dollar :: text) (outputPrefix_explicit p)

/-- What `hash` assembles with a salt it assembles again when it starts from its own output (R369). -/
theorem verifyPassword_mcfString {h : HostSide} {pw : Bytes} {p : Parameters} (hrange : p.InRange)
    (hmax : h.pwMax ≤ 2 ^ 30) (halg : p.alg = 5 ∨ p.alg = 6) (hpw : pw.length ≤ h.pwMax) (hsalt : p.salt ≠ []) :
    verifyPassword h pw (p.mcfString (encodeText p.alg (p.job pw).digest)) = .ok true := by
  have hparse := parse_outputPrefix h.generate halg hrange hsalt
  have hrehash := hashPassword_of_fits (source := .mcf p.outputPrefix) hparse hmax halg hpw
  rw [mcfString_explicit] at hrehash
  rw [← beforeLastDollar_mcfString p p.alg (p.job pw).digest] at hrehash
  exact (verifyPassword_of_ok hrehash).trans (congrArg Verified.ok (decide_eq_true rfl))

/-- Settles O60: the cases of `hash` are those of the job on the block, and `verify` reads back what `hash` wrote. -/
theorem hashVerifies : Obligations.HashVerifies := by
  intro h pw hmax
  refine ⟨fun source e he => hashPassword_of_error pw he, fun source p hp => ⟨fun halg hpw => ?fits,
    fun halg hpw => ?tooLong, fun h5 h6 => ?unsupported⟩, fun stored => ?verify⟩
  case fits =>
    exact ⟨_, rfl, hashPassword_of_fits hp hmax halg hpw,
      verifyPassword_mcfString (inRange_of_parameters hp) hmax halg hpw⟩
  case tooLong => exact hashPassword_of_failed hp (runJob_of_tooLong (j := p.job pw) hmax halg hpw)
  case unsupported => exact hashPassword_of_failed hp (runJob_of_unsupported (j := p.job pw) hmax h5 h6)
  case verify =>
    cases hm : hashPassword h pw (.mcf (beforeLastDollar stored)) with
    | ok m => exact verifyPassword_of_ok hm
    | error e => exact verifyPassword_of_error hm

end Sys2Proof.Machine
end

section
/-! SUPPORT. Errors (60_exceptions.md R390 to R406): what enters ERROR, what leaves it, and that nothing else writes `ERR`. -/
namespace Sys2Proof.Machine

/-! ## Error entry -/

theorem checkJob_of_jobError {passed : State → State} {s : State} {e : Byte} (he : jobError s = some e) :
    checkJob passed s = .next (raiseError e s) :=
  checkJob_next.2 (.inl ⟨e, he, rfl⟩)

/-- CHK and phase CHK enter ERROR alike (R398, R400). -/
theorem exec_chk_of_jobError {i : Instr} (hi : i ∈ [Instr.chk, .phChk]) {s : State} {e : Byte}
    (he : jobError s = some e) : exec i s = .next (raiseError e s) := by
  obtain rfl | rfl : i = .chk ∨ i = .phChk := by simpa using hi
  · exact checkJob_of_jobError (passed := id) he
  · exact checkJob_of_jobError (passed := goto .b0) he

/-- Settles O19. -/
theorem chkRaisesTheErrorsInOrder : Obligations.ChkRaisesTheErrorsInOrder :=
  fun _ _ hi => ⟨fun h5 h6 => exec_chk_of_jobError hi (jobError_of_unsupported ⟨h5, h6⟩),
    fun halg hlength => exec_chk_of_jobError hi (jobError_of_badLength halg hlength)⟩

/-- Error entry clears every buffer but the two that the host writes (R400). -/
theorem raiseError_buf {x : Buf} (hpw : x ≠ .pw) (hsalt : x ≠ .salt) (e : Byte) (s : State) :
    (raiseError e s).buf x = [] := by
  cases x with
  | pw => exact absurd rfl hpw
  | salt => exact absurd rfl hsalt
  | b | p | s | c | t | enc => rfl

/-- A command is ignored while BUSY, whichever way it is issued (R325, R330). -/
theorem exec_of_carriesCommand {i : Instr} {code : Byte} (hi : CarriesCommand i code) (s : State) :
    exec i s = .next (unlessBusy (command code) s) := by
  obtain ⟨rfl, rfl⟩ | ⟨rfl, rfl⟩ | rfl | ⟨idx, v, rfl, hv⟩ := hi
  · rfl
  · rfl
  · rfl
  · have hcode : v.setWidth 8 = code := BitVec.eq_of_toNat_eq (by rw [BitVec.toNat_setWidth]; exact hv)
    rw [← hcode]
    rfl

theorem exec_of_reservedCommand {i : Instr} {code : Byte} (hi : CarriesCommand i code) (hc : code ≠ 0x01 ∧ code ≠ 0x02)
    {s : State} (hb : s.busy = false) : exec i s = .next (raiseError errBadCommand s) := by
  rw [exec_of_carriesCommand hi, unlessBusy_of_not_busy hb, command_reserved s hc]
  rfl

/-- Outside DONE the host reads no result (10_state.md R30, R31). -/
theorem hostReadValue_result_of_ne_done {s : State} (h : s.ph ≠ .done) (idx : Word32) :
    hostReadValue .digest idx s = 0 ∧ hostReadValue .enc idx s = 0 := by
  simp [hostReadValue, h]

/-- What the host reads after error entry (R400, R321). -/
theorem hostReadValue_raiseError (e : Byte) (s : State) :
    hostReadValue .status 0 (raiseError e s) = 3 ∧ hostReadValue .err 0 (raiseError e s) = e.setWidth 32 ∧
    (∀ idx, hostReadValue .digest idx (raiseError e s) = 0 ∧ hostReadValue .enc idx (raiseError e s) = 0) ∧
    ∀ o ∈ [Obj.alg, .rounds, .slen, .plen, .salt], ∀ idx,
      hostReadValue o idx (raiseError e s) = hostReadValue o idx s := by
  refine ⟨rfl, rfl, hostReadValue_result_of_ne_done (s := raiseError e s) nofun, ?_⟩
  simp only [List.forall_mem_cons]
  exact ⟨fun _ => rfl, fun _ => rfl, fun _ => rfl, fun _ => rfl, fun _ => rfl, List.forall_mem_nil _⟩

/-- Settles O20: every cause enters ERROR by the same `raiseError`, and its code alone tells the causes apart. -/
theorem errorEntryAsTheHostSeesIt : Obligations.ErrorEntryAsTheHostSeesIt := by
  intro s i code hcause
  obtain ⟨e, rfl, he⟩ : ∃ e : Byte, code = e.setWidth 32 ∧ exec i s = .next (raiseError e s) := by
    obtain ⟨hi, h5, h6, rfl⟩ | ⟨hi, halg, hlength, rfl⟩ | ⟨hph, rfl, c, hstart, hclear, hc⟩ := hcause
    · exact ⟨errUnsupportedAlgorithm, rfl, exec_chk_of_jobError hi (jobError_of_unsupported ⟨h5, h6⟩)⟩
    · exact ⟨errBadLength, rfl, exec_chk_of_jobError hi (jobError_of_badLength halg hlength)⟩
    · exact ⟨errBadCommand, rfl,
        exec_of_reservedCommand (.inr (.inr hc)) ⟨hstart, hclear⟩ (busy_eq_false_iff.2 hph)⟩
  exact ⟨_, he, hostReadValue_raiseError e s⟩

/-! ## What leaves `ERR` alone -/

/-- Where the answer is a next state, it has the `ERR` of `s`, and neither ERR nor CHK is newly entered. -/
def KeepsErr (s : State) (a : Answer) : Prop :=
  ∀ t, a = .next t → t.err = s.err ∧ (t.ph = .err → s.ph = .err) ∧ (t.ph = .chk → s.ph = .chk)

theorem KeepsErr.of_next {s : State} {a : Answer} (h : ∀ t, a = .next t → t.err = s.err ∧ t.ph = s.ph) :
    KeepsErr s a := by
  intro t ht
  obtain ⟨herr, hph⟩ := h t ht
  exact ⟨herr, hph.symm.trans, hph.symm.trans⟩

theorem KeepsErr.next {s t : State} (herr : t.err = s.err) (hph : t.ph = s.ph) : KeepsErr s (.next t) :=
  .of_next (by rintro _ ⟨⟩; exact ⟨herr, hph⟩)

theorem KeepsErr.ite {s : State} {c : Prop} [Decidable c] {a b : Answer} (ha : KeepsErr s a) (hb : KeepsErr s b) :
    KeepsErr s (if c then a else b) := by
  split
  · exact ha
  · exact hb

theorem KeepsErr.andThen {s : State} {a : Answer} {k : State → Answer} (ha : KeepsErr s a)
    (hk : ∀ t, KeepsErr t (k t)) : KeepsErr s (andThen a k) := by
  intro u hu
  obtain ⟨t, hat, htu⟩ := andThen_next.1 hu
  obtain ⟨herr, hph, hchk⟩ := ha t hat
  obtain ⟨herr', hph', hchk'⟩ := hk t u htu
  exact ⟨herr'.trans herr, hph ∘ hph', hchk ∘ hchk'⟩

/-- A phase keeps `ERR` when its micro-operation and its counter writes do and its successor is neither ERR nor CHK. -/
theorem KeepsErr.enter {s : State} {u : State → Answer} {f : State → State} {p : Phase} (hu : KeepsErr s (u s))
    (hp : p ≠ .err ∧ p ≠ .chk := by decide) (hf : ∀ t, (f t).err = t.err := by exact fun _ => rfl) :
    KeepsErr s (issue u (fun t => goto p (f t)) s) :=
  hu.andThen fun t => by
    rintro _ ⟨⟩
    exact ⟨hf t, fun herr => absurd herr hp.1, fun hchk => absurd hchk hp.2⟩

theorem openContext_keepsErr (s : State) : KeepsErr s (openContext s) :=
  .of_next fun _ ht => by
    obtain ⟨-, rfl⟩ := openContext_next.1 ht
    exact ⟨rfl, rfl⟩

theorem feedWhole_keepsErr (x : Buf) (s : State) : KeepsErr s (feedWhole x s) :=
  .of_next fun _ ht => by
    obtain ⟨-, -, rfl⟩ := feedWhole_next.1 ht
    exact ⟨rfl, rfl⟩

theorem feedPartial_keepsErr (s : State) : KeepsErr s (feedPartial s) :=
  .of_next fun _ ht => by
    obtain ⟨-, -, rfl⟩ := feedPartial_next.1 ht
    exact ⟨rfl, rfl⟩

theorem hashFinish_keepsErr (x : Buf) (s : State) : KeepsErr s (hashFinish x s) :=
  .of_next fun _ ht => by
    obtain ⟨-, rfl⟩ := hashFinish_next.1 ht
    exact ⟨setBuf_err s x _, setBuf_ph s x _⟩

theorem fillFromT_keepsErr (x : Buf) (s : State) : KeepsErr s (fillFromT x s) :=
  .of_next fun _ ht => by
    obtain ⟨-, rfl⟩ := fillFromT_next.1 ht
    exact ⟨setBuf_err s x _, setBuf_ph s x _⟩

theorem encodeFullGroup_keepsErr (s : State) : KeepsErr s (encodeFullGroup s) :=
  .of_next fun _ ht => by
    obtain ⟨-, i0, i1, i2, -, -, -, rfl⟩ := encodeFullGroup_next.1 ht
    exact ⟨rfl, rfl⟩

theorem feedAll_keepsErr (xs : List Buf) (s : State) : KeepsErr s (feedAll xs s) := by
  induction xs generalizing s with
  | nil => exact .next rfl rfl
  | cons x xs ih => exact (feedWhole_keepsErr x s).andThen ih

theorem roundOf_keepsErr (xs : List Buf) (s : State) : KeepsErr s (roundOf xs s) :=
  (openContext_keepsErr s).andThen fun t => (feedAll_keepsErr xs t).andThen fun u =>
    (hashFinish_keepsErr .c u).enter

theorem hostWriteObj_keepsErr {o : Obj} (ho : o ≠ .ctrl) (idx v : Word32) (s : State) :
    KeepsErr s (.next (hostWriteObj o idx v s)) := by
  have store {x : Buf} (hox : Stores o x) : KeepsErr s (.next (hostWriteObj o idx v s)) := by
    rw [hox]
    split
    · exact .next (setBuf_err s x _) (setBuf_ph s x _)
    · exact .next rfl rfl
  cases o with
  | ctrl => exact absurd rfl ho
  | salt => exact store salt_stores
  | pw => exact store pw_stores
  | _ => exact .next rfl rfl

theorem unlessBusy_keepsErr {f : State → State} {s : State} (hf : KeepsErr s (.next (f s))) :
    KeepsErr s (.next (unlessBusy f s)) := by
  unfold unlessBusy
  split
  · exact .next rfl rfl
  · exact hf

/-- Every micro-operation but CHK. -/
theorem exec_keepsErr_of_microOp {i : Instr} (hchk : i ≠ .chk) (hi : i.format = .u ∨ i.format = .ue) (s : State) :
    KeepsErr s (exec i s) := by
  cases i with
  | chk => exact absurd rfl hchk
  | nop | encg3 | encg2 => exact .next rfl rfl
  | hnew => exact openContext_keepsErr s
  | hupdPw | hupdSalt | hupdB | hupdP | hupdS | hupdC => exact feedWhole_keepsErr _ s
  | hupdn => exact feedPartial_keepsErr s
  | hfinB | hfinC | hfinT => exact hashFinish_keepsErr _ s
  | fillP | fillS => exact fillFromT_keepsErr _ s
  | encg4 => exact encodeFullGroup_keepsErr s
  | _ => simp [Instr.format] at hi

theorem exec_keepsErr_of_roundType {i : Instr} (hi : i.format = .rt) (s : State) : KeepsErr s (exec i s) := by
  cases i with
  | rndCp | rndCpp | rndCsp | rndCspp | rndPc | rndPpc | rndPsc | rndPspc => exact roundOf_keepsErr _ s
  | _ => cases hi

/-- Every phase but CHK: the microprogram has no other way to ERR, and no way back to CHK (30_encoding.md R104). -/
theorem exec_phaseInstr_keepsErr {p : Phase} (hp : p ≠ .chk) (s : State) : KeepsErr s (exec (phaseInstr p) s) := by
  have nop : KeepsErr s (.next s) := .next rfl rfl
  have new := openContext_keepsErr s
  have feed (x : Buf) := feedWhole_keepsErr x s
  cases p with
  | chk => exact absurd rfl hp
  | idle | done | err => exact nop
  | b0 | a0 | dp0 | ds0 => exact new.enter
  | b1 | b2 | b3 | a1 | a2 => exact (feed _).enter
  | b4 | a5 | dp2 | ds2 | r5 => exact (hashFinish_keepsErr _ s).enter
  | p0 | s0 => exact (fillFromT_keepsErr _ s).enter
  | a3 => exact .ite (feed .b).enter (feedPartial_keepsErr s).enter
  | a4 => exact .ite nop.enter (.ite (feed .b).enter (feed .pw).enter)
  | dp1 | ds1 => exact .ite nop.enter (feed _).enter
  | rt => exact .ite nop.enter new.enter
  | r1 | r4 => exact .ite (feed _).enter (feed _).enter
  | r2 | r3 => exact .ite (feed _).enter nop.enter
  | e0 => exact .ite (encodeFullGroup_keepsErr s).enter (.ite (.enter (.next rfl rfl)) (.enter (.next rfl rfl)))

/-! ## What an instruction can do to `ERR` -/

/-- The ways of an instruction that leads from `s` to `t` to treat `ERR` (R406). -/
inductive ErrEvent (i : Instr) (s t : State) : Prop
  | keeps (h : KeepsErr s (.next t))
  | start (hi : CarriesCommand i 0x01) (hb : s.busy = false) (ht : t = startJob s)
  | clear (hi : CarriesCommand i 0x02) (hb : s.busy = false) (ht : t = toReset s)
  | jobError (hi : i ∈ [Instr.chk, .phChk]) (e : Byte) (he : jobError s = some e) (ht : t = raiseError e s)
  | badCommand (code : Byte) (hi : CarriesCommand i code) (hc : code ≠ 0x01 ∧ code ≠ 0x02) (hb : s.busy = false)
      (ht : t = badCommand s)

theorem errEvent_of_checkJob {i : Instr} (hi : i ∈ [Instr.chk, .phChk]) {passed : State → State} {s t : State}
    (hpassed : KeepsErr s (.next (passed (clearInternal s)))) (h : checkJob passed s = .next t) : ErrEvent i s t := by
  obtain ⟨e, he, ht⟩ | ⟨-, rfl⟩ := checkJob_next.1 h
  · exact .jobError hi e he ht
  · exact .keeps hpassed

theorem errEvent_of_carriesCommand {i : Instr} {code : Byte} (hi : CarriesCommand i code) {s t : State}
    (h : exec i s = .next t) : ErrEvent i s t := by
  rw [exec_of_carriesCommand hi] at h
  cases h
  cases hb : s.busy with
  | true =>
    rw [unlessBusy_of_busy hb]
    exact .keeps (.next rfl rfl)
  | false =>
    rw [unlessBusy_of_not_busy hb]
    by_cases hstart : code = 0x01
    · subst hstart
      exact .start hi hb (command_start s)
    · by_cases hclear : code = 0x02
      · subst hclear
        exact .clear hi hb (command_clear s)
      · exact .badCommand code hi ⟨hstart, hclear⟩ hb (command_reserved s ⟨hstart, hclear⟩)

/-- A write to `CTRL` carries the command in its low byte (30_encoding.md R95). -/
theorem carriesCommand_wr_ctrl (idx v : Word32) : CarriesCommand (.wr .ctrl idx v) (v.setWidth 8) :=
  .inr (.inr (.inr ⟨idx, v, rfl, (BitVec.toNat_setWidth 8 v).symm⟩))

theorem errEvent_of_wr {o : Obj} {idx v : Word32} {s t : State} (h : exec (.wr o idx v) s = .next t) :
    ErrEvent (.wr o idx v) s t := by
  by_cases ho : o = .ctrl
  · subst ho
    exact errEvent_of_carriesCommand (carriesCommand_wr_ctrl idx v) h
  · cases h
    exact .keeps (unlessBusy_keepsErr (hostWriteObj_keepsErr ho idx v s))

/-- Whatever runs: CHK, phase CHK and what carries a command may change `ERR`, and nothing else does. -/
theorem errEvent_of_exec {i : Instr} {s t : State} (h : exec i s = .next t) : ErrEvent i s t := by
  cases hf : i.format with
  | u | ue =>
    by_cases hchk : i = .chk
    · subst hchk
      exact errEvent_of_checkJob (passed := id) (by decide) (.next rfl rfl) h
    · exact .keeps (h ▸ exec_keepsErr_of_microOp hchk (by simp [hf]) s)
  | rt => exact .keeps (h ▸ exec_keepsErr_of_roundType hf s)
  | phase =>
    obtain ⟨p, rfl⟩ := eq_phaseInstr_of_format hf
    by_cases hchk : p = .chk
    · subst hchk
      exact errEvent_of_checkJob (passed := goto .b0) (by decide) (by rintro _ ⟨⟩; exact ⟨rfl, nofun, nofun⟩) h
    · exact .keeps (h ▸ exec_phaseInstr_keepsErr hchk s)
  | ha =>
    cases i with
    | rd obj idx =>
      cases h
      exact .keeps (.next rfl rfl)
    | wr obj idx data => exact errEvent_of_wr h
    | _ => cases hf
  | cmd =>
    cases i with
    | start => exact errEvent_of_carriesCommand (.inl ⟨rfl, rfl⟩) h
    | clear => exact errEvent_of_carriesCommand (.inr (.inl ⟨rfl, rfl⟩)) h
    | cmdReserved code => exact errEvent_of_carriesCommand (.inr (.inr (.inl rfl))) h
    | _ => cases hf

/-- Settles O21: what an instruction can do to `ERR`, with the codes and the buffers of error entry. -/
theorem errChangesOnlyByStartClearOrErrorEntry : Obligations.ErrChangesOnlyByStartClearOrErrorEntry := by
  intro i s t h
  cases errEvent_of_exec h with
  | keeps h => exact .inl (h t rfl)
  | start hi hb ht => exact .inr (.inl ⟨hi, hb, ht⟩)
  | clear hi hb ht => exact .inr (.inr (.inl ⟨hi, hb, ht⟩))
  | jobError hi e he ht =>
    subst ht
    have hcode : e ∈ [0x01, 0x02] := by
      obtain rfl | rfl := eq_of_jobError he <;> decide
    exact .inr (.inr (.inr ⟨.inl ⟨hi, hcode⟩, rfl, fun x hpw hsalt => raiseError_buf hpw hsalt e s⟩))
  | badCommand code hi hc hb ht =>
    subst ht
    exact .inr (.inr (.inr ⟨.inr ⟨hb, rfl, code, hc.1, hc.2, hi⟩, rfl,
      fun x hpw hsalt => raiseError_buf hpw hsalt errBadCommand s⟩))

end Sys2Proof.Machine
end

section
/-! SUPPORT. Reset from every state (10_state.md R48, 70_reset_and_hazards.md R430), and the exact length of a job
(70_reset_and_hazards.md R445): a state before the end still runs, because what has stopped stays as it is. -/
namespace Sys2Proof.Machine

/-- Settles O34: the reset state field by field, and the reset turn. -/
theorem resetLeavesTheResetValues : Obligations.ResetLeavesTheResetValues := by
  have hbuf (x : Buf) : State.reset.buf x = [] := by cases x <;> rfl
  exact ⟨hbuf, rfl, rfl, rfl, rfl, rfl, rfl, rfl, rfl, rfl, rfl, fun _ _ ha => step_of_reset ha⟩

/-! ## The states before the end of a run -/

/-- A run of `n` steps passes through a state after each smaller number of steps. -/
theorem exists_run_of_le {s t : State} {n k : Nat} (h : Sys2Proof.core.run n s = .next t) (hk : k ≤ n) :
    ∃ u, Sys2Proof.core.run k s = .next u := by
  induction k generalizing s n with
  | zero => exact ⟨s, run_zero s⟩
  | succ k ih =>
    obtain ⟨n, rfl⟩ := Nat.exists_eq_add_of_le' (Nat.one_le_of_lt hk)
    rw [run_succ] at h
    obtain ⟨v, hstep, hv⟩ := andThen_next.1 h
    obtain ⟨u, hu⟩ := ih hv (Nat.le_of_succ_le_succ hk)
    exact ⟨u, (run_succ_of_next k hstep).trans hu⟩

/-- The sequencer puts no turn on the agenda. -/
theorem agenda_of_run {s t : State} {n : Nat} (h : Sys2Proof.core.run n s = .next t) (ha : s.agenda = []) :
    t.agenda = [] := by
  induction n generalizing s with
  | zero =>
    cases h
    exact ha
  | succ n ih =>
    rw [run_succ] at h
    obtain ⟨u, hstep, hu⟩ := andThen_next.1 h
    rw [step_of_agenda_nil ha] at hstep
    have hkept : u.agenda = s.agenda :=
      congrArg (fun side => side.1.agenda) (exec_phaseInstr_keepsHostSide s.ph s u hstep)
    exact ih hu (hkept.trans ha)

/-- Where a run without turns ends in a running phase, it has been in running phases all the way: had it stopped on the way,
it would have stayed there (60_exceptions.md R415). -/
theorem exists_busy_of_run_le {s t : State} {n k : Nat} (h : Sys2Proof.core.run n s = .next t) (ha : s.agenda = [])
    (hb : t.busy = true) (hk : k ≤ n) : ∃ u, Sys2Proof.core.run k s = .next u ∧ u.busy = true := by
  obtain ⟨u, hu⟩ := exists_run_of_le h hk
  refine ⟨u, hu, ?_⟩
  cases hub : u.busy with
  | true => rfl
  | false =>
    have hut := run_of_le hu hub (agenda_of_run hu ha) hk
    rw [h] at hut
    cases hut
    exact hub.symm.trans hb

/-! ## From CHK to E0 and DONE -/

theorem Memory.read_writeBytes_nil_of_length_le {v : Bytes} {k : Nat} (hk : v.length ≤ k) :
    (Memory.writeBytes [] 0 v).read k = 0 := by
  rw [Memory.read_writeBytes, if_neg (by omega), Memory.read_nil]

/-- `s` when its job reaches E0: all rounds done and `C` holding `m`. -/
def State.chained (s : State) (m : Memory) : State :=
  { s.setUp with bufC := m, i := s.rounds, ph := .e0 }

/-- Phase E0 finds no text yet, and `G` = 0 (R49). -/
theorem chained_encoding_zero (s : State) (m : Memory) : (s.chained m).encoding 0 = s.chained m := rfl

/-- The number of steps from CHK to E0 (R228, R260). -/
def Job.chainSteps (j : Job) : Nat := j.setupSteps + (6 * j.rounds + 1)

/-- R445's number of steps is set-up, round loop and encoder. -/
theorem chainSteps_add_groupCount (s : State) :
    s.job.chainSteps + groupCount s.alg = 37 + s.plen.toNat / digestSize s.alg + s.plen.toNat.size + s.plen.toNat +
      (s.job.digestA.getD 0 0).toNat + 6 * s.rounds.toNat + groupCount s.alg := by
  rw [Job.chainSteps, Job.setupSteps, Job.saltCount, job_pw_length]
  show 20 + s.plen.toNat / digestSize s.alg + _ + _ + _ + (6 * s.rounds.toNat + 1) + _ = _
  omega

section
variable {s : State} (hph : s.ph = .chk) (ha : s.agenda = []) (hjob : jobError s = none)
include hph ha hjob

/-- At E0 the buffer `C` holds the job's digest and nothing behind it (R251). -/
theorem run_chained : ∃ m, Sys2Proof.core.run s.job.chainSteps s = .next (s.chained m) ∧
    m.readBytes 0 (digestSize s.alg) = s.job.digest ∧ ∀ k, digestSize s.alg ≤ k → m.read k = 0 := by
  obtain ⟨m, hrounds, hdigest, hrest⟩ := roundLoopComputesTheChain s.setUp rfl ha rfl rfl hjob
  have hlength : s.job.digestA.length = digestSize s.alg := hashBytes_length ..
  refine ⟨m, run_trans (run_setup hph ha hjob) hrounds, hdigest.trans (chainFrom_setUp s), fun k hk => ?_⟩
  exact (hrest k hk).trans (Memory.read_writeBytes_nil_of_length_le (hlength.trans_le hk))

/-- Before its last step the job is in a running phase: it is the encoder that takes that step, for the last group. -/
theorem exists_busy_of_lt_steps {k : Nat} (hk : k < s.job.chainSteps + groupCount s.alg) :
    ∃ u, Sys2Proof.core.run k s = .next u ∧ u.busy = true := by
  obtain ⟨halg, -, -⟩ := jobError_none.1 hjob
  obtain ⟨m, hchain, -, -⟩ := run_chained hph ha hjob
  have hgroups := run_encoding (s := s.chained m) ha halg le_rfl
  rw [chained_encoding_zero] at hgroups
  have hcount := groupCount_pos s.alg
  have hlast : k ≤ s.job.chainSteps + (groupCount (s.chained m).alg - 1) := by
    show k ≤ s.job.chainSteps + (groupCount s.alg - 1)
    omega
  exact exists_busy_of_run_le (run_trans hchain hgroups) ha rfl hlast

end

/-- Settles O55: the set-up and the rounds to E0, the encoder from there, and no stop before its last group. -/
theorem jobReachesDoneWithItsDigestAndText : Obligations.JobReachesDoneWithItsDigestAndText := by
  intro s hph ha hjob N hN
  obtain rfl := hN.trans (chainSteps_add_groupCount s).symm
  obtain ⟨halg, -, -⟩ := jobError_none.1 hjob
  obtain ⟨m, hchain, hdigest, hrest⟩ := run_chained hph ha hjob
  obtain ⟨e, hencode, htext, hblank⟩ := encoderWritesTheText (s.chained m) rfl ha rfl rfl halg
  refine ⟨fun k hk => ?before, _, run_trans hchain hencode, rfl, rfl, rfl, hdigest, hdigest ▸ htext, hrest, hblank⟩
  case before =>
    obtain ⟨u, hu, hb⟩ := exists_busy_of_lt_steps hph ha hjob hk
    obtain ⟨-, hdone, -⟩ := busy_iff.1 hb
    exact ⟨u, hu, hdone⟩

end Sys2Proof.Machine
end
